-- ==== Sys2Proof/Word.lean ====
section
/-! DEFINITION. The widths the spec gives its values (00_scope.md R8: all values are unsigned). -/

namespace Sys2Proof

/-- A byte: 8 bits (R8). -/
abbrev Byte := BitVec 8

/-- A 16-bit value: `CRC`, `ERRINFO`, `LINELEN`, `PLEN`, `RPLEN`, header `length` and `group` (R21). -/
abbrev Half := BitVec 16

/-- A 32-bit value: `MTU`, `TIMEOUT`, `TLEN`, `WLEN`, `RLEN`, `TMR`, `WIDX` (R21, R33, R34). -/
abbrev Word := BitVec 32

end Sys2Proof
end

