-- ==== Sys2Proof/Config.lean ====
section
/-! DEFINITION. What an implementation fixes (the OPEN parameters of 00_scope.md R7) and the free values: opaque
constants with no body, so that nothing can be proved of the value of one of them. -/

namespace Sys2Proof

/-! ## Free values -/

/-- `SEED`, the value of `SEQ` after reset: "any of 0..255, drawn at each reset" (R7, R39, R302). Log 1. -/
opaque Config.seed : Byte

/-- `RXFIFO` after reset: "any finite byte sequence" (R39). Log 2. -/
opaque Config.rxAtReset : List Byte

/-- The byte at an offset of a buffer that nothing has written since the draw `gen` (R32, R39, R40). Log 3 to 6. -/
opaque Config.freeByte (gen offset : Nat) : Byte

/-- The `k`-th free value of a register of `w` bits (R40; log 5, log 7). -/
opaque Config.freeValue (w k : Nat) : BitVec w

/-! ## Buffer capacities -/

/-- `PBUF_MAX`, `TBUF_MAX`, `WBUF_MAX`, `RBUF_MAX` (R7, R32): a number of bytes, or `none` for an unbounded buffer. -/
structure Capacities where
  /-- `PBUF_MAX`: "Constraint if bounded: `PBUF_MAX <= 65535`" (R7). -/
  pbuf : Option (Fin 65536)
  /-- `TBUF_MAX`. -/
  tbuf : Option Nat
  /-- `WBUF_MAX`. -/
  wbuf : Option Nat
  /-- `RBUF_MAX`. -/
  rbuf : Option Nat
  deriving DecidableEq, Repr

/-- `PBUF_MAX` as a number of bytes. -/
def Capacities.pbufMax (c : Capacities) : Option Nat := c.pbuf.map Fin.val

/-- "the model may take all four as unbounded (lists)" (R7). DESIGN CHOICE, log 8. -/
def Config.unbounded : Capacities := { pbuf := none, tbuf := none, wbuf := none, rbuf := none }

/-! ## Parameters of the host's protocol only (46_host_protocol.md part B; log 22). The block reads none of them (R83). -/

/-- `OP_READ`, a member of the `op` enumeration without a number in the source (R83). -/
opaque Config.opRead : Byte
/-- `OP_READ_RSP` (R83). -/
opaque Config.opReadRsp : Byte
/-- `OP_WRITE` (R83). -/
opaque Config.opWrite : Byte
/-- `OP_WRITE_RSP` (R83). -/
opaque Config.opWriteRsp : Byte
/-- `GROUP_IMAGE` (R83). -/
opaque Config.groupImage : Half
/-- `CMD_STATE` (R83). -/
opaque Config.cmdState : Byte
/-- `CMD_UPLOAD` (R83). -/
opaque Config.cmdUpload : Byte
/-- `SHRINK_MARGIN` less one: the margin is "OPEN, at least 1" (R7, R255). -/
opaque Config.shrinkMarginLessOne : Nat
/-- `CHUNK_MAX`, the "configured maximum" of the attempted chunk length (R251). -/
opaque Config.chunkMax : Nat

/-- A decoded payload, "key strings to typed values" (R192): the format is not in the source, so its type is open. -/
opaque Config.Payload : Type

/-- `PayloadDecode`, the host's payload decoder (R192): any function of the bytes; `none` is `ERR_PAYLOAD`. -/
opaque Config.payloadDecode (bytes : List Byte) : Option Config.Payload

/-- What the host needs of a decoded upload response (R257): the status code, and the offset when it is present. -/
structure Response where
  /-- The status-code field; non-zero is fatal. -/
  status : Nat
  /-- The offset field, "when present". -/
  offset : Option Nat
  deriving DecidableEq, Repr, Inhabited

/-- The status-code and offset fields of a decoded payload; their key names are not in the source (R257). -/
opaque Config.responseFields (p : Config.Payload) : Response

/-- The fields of an image-upload request payload (R260). The `upgrade` flag is "absent/omitted in this system", so it
has no field. -/
structure UploadPayload where
  /-- `image-slot`, an integer. -/
  slot : Int
  /-- `offset`, "unsigned 32-bit". -/
  offset : Word
  /-- `data`. -/
  data : List Byte
  /-- `length`, "unsigned 32-bit", and `data-hash` (the digest, opaque here): on one chunk of a transfer only. -/
  first : Option (Word × List Byte)
  deriving DecidableEq, Repr

/-- The host's payload encoder (R192): any function of the fields. -/
opaque Config.payloadEncode (p : UploadPayload) : List Byte

/-- "an empty key/value payload" (R262): bytes the source does not give. -/
opaque Config.emptyPayload : List Byte

/-- The SHA-256 digest of the image, an opaque function of it (R5, R260, 93 U7). -/
opaque Config.imageDigest (image : List Byte) : List Byte

end Sys2Proof
end

