-- ==== Sys2Proof/Machine/Agents.lean ====
section
/-! DEFINITION. The names the four agents of 00_scope.md R6 use: the numbered registers, the buffers, the host's bus
operations, the sequencer's states, the fault codes and the entries of the environment script. -/

namespace Sys2Proof.Machine

/-- The registers that have a number (10_state.md R21). -/
inductive Reg where
  | CMD | STATUS | ERR | ERRINFO | RES | CRC | DATA | LINELEN | MTU | TIMEOUT | PLEN | TLEN | WLEN | RLEN | RPLEN
  | TXH_OP | TXH_FLAGS | TXH_LEN | TXH_GROUP | TXH_SEQ | TXH_CMD
  | RXH_OP | RXH_FLAGS | RXH_LEN | RXH_GROUP | RXH_SEQ | RXH_CMD
  deriving DecidableEq, Repr

/-- The four byte buffers (10_state.md R32). -/
inductive Buf where
  | PBUF | TBUF | WBUF | RBUF
  deriving DecidableEq, Repr

/-- The host's four bus operations (46_host_protocol.md R240 to R244). A register is named by its number and a value is
a number, so that an ill-formed operation (10_state.md R41) can be written down and refused. -/
inductive BusOp where
  /-- `wr REG, v` (R241). -/
  | wr (reg value : Nat)
  /-- `rd REG` (R242). -/
  | rd (reg : Nat)
  /-- `wrb BUF, off, bytes` (R243). -/
  | wrb (buf : Buf) (off : Nat) (bytes : List Byte)
  /-- `rdb BUF, off, n` (R244). -/
  | rdb (buf : Buf) (off n : Nat)
  deriving DecidableEq, Repr

/-- What a read returns to the host. -/
inductive BusValue where
  /-- The value of a register, as a number (R242). -/
  | reg (value : Nat)
  /-- Bytes of a buffer (R244). -/
  | bytes (bs : List Byte)
  deriving DecidableEq, Repr

/-- `XSTATE`, the states of the framing state machine (10_state.md R33, 45_transceive.md R201). -/
inductive XState where
  | idle | opening | flush | write | waitM0 | waitM1 | body | decode | fault
  deriving DecidableEq, Repr

/-- The fault codes of 60_exceptions.md R271, 1 to 13 in order. -/
inductive FaultCode where
  /-- The serial device could not be opened; raised by `XCV` (R203). -/
  | ioOpen
  /-- A byte could not be written; raised by `XCV` (R205). -/
  | ioWrite
  /-- A read failed; raised by `XCV` (R206 to R208, R217). -/
  | ioRead
  /-- No byte arrived in time; raised by `XCV` (R218). -/
  | timeout
  /-- Start marker mismatch; raised by `XCV` (R206, R207). -/
  | marker
  /-- The text is not valid base64; raised by `B64.DEC`, `FRM.DEC`, `XCV` (R145). -/
  | b64
  /-- Fewer than 12 bytes decoded; raised by `FRM.DEC`, `XCV` (R182). -/
  | short
  /-- Length prefix mismatch; raised by `FRM.DEC`, `XCV` (R183). -/
  | len
  /-- Checksum mismatch; raised by `FRM.DEC`, `XCV` (R184). -/
  | crc
  /-- Malformed payload: never raised by the block, reserved for the host's decoder (R192). -/
  | payload
  /-- The line is longer than `TBUF_MAX`; raised by `XCV` (R208). -/
  | overrun
  /-- Inputs the algorithm has no meaning for, or a result larger than a bounded buffer (R147, R148, R166, R187). -/
  | cfg
  /-- An illegal command code (R96). -/
  | cmd
  deriving DecidableEq, Repr

/-- An entry of the environment script: what the remote device, the serial port's environment or the reset line does
(00_scope.md R6, 30_encoding.md R100, 70_reset_and_hazards.md R300; log 9). -/
inductive EnvEvent where
  /-- Nothing from outside: the machine takes one step. -/
  | proceed
  /-- `dev.push bytes`: the remote device appends these bytes to `RXFIFO` (R100, R216). -/
  | push (bytes : List Byte)
  /-- The environment holds until `XSTATE` is the named state ("at the named state", R100). -/
  | await (x : XState)
  /-- `env.openfail`: the next open of the serial device fails (R100, R203). -/
  | openFail
  /-- `env.writefail n`: the write of `WBUF[n]` fails (R100, R205). -/
  | writeFail (n : Nat)
  /-- `env.readfail`: the next read fails (R100, R217). -/
  | readFail
  /-- `env.timeout`: the timeout fires at the next wait that finds `RXFIFO` empty (R100, R218). -/
  | timeout
  /-- One `TICK` (one second) passes for the timer (R34, R287). -/
  | tick
  /-- Reset, with the seed and the content of `RXFIFO` drawn at it (R300 to R302). -/
  | reset (seed : Byte) (rx : List Byte)
  deriving DecidableEq, Repr

end Sys2Proof.Machine
end

