-- ==== Sys2Proof/Machine/State.lean ====
section
/-! DEFINITION. The state of the block and of its agents, the ways a step can stop, and the state after reset. -/

namespace Sys2Proof.Machine

/-- One byte buffer: the bytes written, by offset, offsets strictly rising. An offset that is not listed holds a byte
nothing has written since the draw `gen`. -/
structure Memory where
  /-- Which draw the unwritten bytes belong to (log 3). -/
  gen : Nat
  /-- The written bytes. -/
  cells : List Host.Cell
  deriving DecidableEq, Repr

/-- The canonical form of a buffer: offsets strictly rising. (An unlisted offset holds no written byte, so no entry can
equal what an unlisted offset holds.) -/
abbrev Memory.wf (m : Memory) : Prop := m.cells.Pairwise fun x y => x.1 < y.1

/-- The machine's state: everything 10_state.md names, then the model's own fields (INVENTORY.md, "State"). -/
structure State where
  /-- `CMD` (R21), the last code written; log 14. -/
  cmd : Byte
  /-- `STATUS` (R22). -/
  status : Byte
  /-- `ERR` (R31). -/
  err : Byte
  /-- `ERRINFO` (R31). -/
  errinfo : Half
  /-- `RES` (R26). -/
  res : Byte
  /-- `CRC` (R25). -/
  crc : Half
  /-- `DATA` (R26). -/
  data : Byte
  /-- `LINELEN` (R27). -/
  linelen : Half
  /-- `MTU` (R27). -/
  mtu : Word
  /-- `TIMEOUT` (R27). -/
  timeout : Word
  /-- `PLEN` (R28). -/
  plen : Half
  /-- `TLEN` (R28). -/
  tlen : Word
  /-- `WLEN` (R28). -/
  wlen : Word
  /-- `RLEN` (R28). -/
  rlen : Word
  /-- `RPLEN` (R28). -/
  rplen : Half
  /-- `TXH_OP` (R29). -/
  txhOp : Byte
  /-- `TXH_LEN` (R29). -/
  txhLen : Half
  /-- `TXH_GROUP` (R29). -/
  txhGroup : Half
  /-- `TXH_SEQ` (R29). -/
  txhSeq : Byte
  /-- `TXH_CMD` (R29). -/
  txhCmd : Byte
  /-- `RXH_OP` (R30). -/
  rxhOp : Byte
  /-- `RXH_FLAGS` (R30). -/
  rxhFlags : Byte
  /-- `RXH_LEN` (R30). -/
  rxhLen : Half
  /-- `RXH_GROUP` (R30). -/
  rxhGroup : Half
  /-- `RXH_SEQ` (R30). -/
  rxhSeq : Byte
  /-- `RXH_CMD` (R30). -/
  rxhCmd : Byte
  /-- `SEQ` (R24). -/
  seq : Byte
  /-- `XSTATE` (R33). -/
  xstate : XState
  /-- `WIDX` (R33). -/
  widx : Word
  /-- `TMR` (R34). -/
  tmr : Word
  /-- `PORT_OPEN` (R35). -/
  portOpen : Bool
  /-- `PBUF` (R32). -/
  pbuf : Memory
  /-- `TBUF` (R32). -/
  tbuf : Memory
  /-- `WBUF` (R32). -/
  wbuf : Memory
  /-- `RBUF` (R32). -/
  rbuf : Memory
  /-- `TXOUT`, oldest byte first (R36). -/
  txout : List Byte
  /-- `RXFIFO`, oldest byte first (R36). -/
  rxfifo : List Byte
  /-- The capacities of the buffers, which no step changes (R7, R32; log 8). -/
  caps : Capacities
  /-- The number of free values drawn so far (log 5). -/
  draws : Nat
  /-- The host program (R23; log 13). -/
  program : List BusOp
  /-- The host index `pc` (R23). -/
  pc : Nat
  /-- The host program stopped at a faulting operation (R23; log 13). -/
  stopped : Bool
  /-- The values returned to the host, oldest first (R242, R244; log 20). -/
  reads : List BusValue
  /-- What the other agents will do (R6, R100; log 9). -/
  env : List EnvEvent
  deriving DecidableEq, Repr

/-- A step never ends in a machine fault: every fault of the spec is a state that the fault entry makes
(60_exceptions.md R280), and every operation the spec gives no meaning is refused (10_state.md R41). So the type has no
constructor; this is safe. -/
inductive Fault
  deriving DecidableEq, Repr

/-- Why there is no next state. All but the first are the refusals of 10_state.md R41 ("the spec gives them no meaning;
the model has no such step"), raised by the host's bus operations; each is safe, since nothing is claimed of what a
real bus would do. -/
inductive Refusal where
  /-- An instruction that has no meaning yet; raised by `exec` only. Safe. -/
  | notModelled (mnemonic : String)
  /-- `rd` or `wr` of a number that names no register (R41). Safe. -/
  | noSuchRegister (number : Nat)
  /-- `rd` of a register not marked R: `CMD` (R41). Safe. -/
  | notReadable (reg : Reg)
  /-- `wr` of a register not marked W (R41). Safe. -/
  | notWritable (reg : Reg)
  /-- `wr` of a value that does not fit the register's width (R41). Safe. -/
  | valueTooWide (reg : Reg) (value : Nat)
  /-- `wr` of `PLEN` or `TLEN` larger than the buffer's capacity (R41). Safe. -/
  | lengthBeyondCapacity (reg : Reg) (value : Nat)
  /-- `wrb` or `rdb` beyond the buffer's capacity (R41). Safe. -/
  | beyondCapacity (buf : Buf) (off n : Nat)
  /-- `wrb` of `WBUF` or `RBUF` (R41). Safe. -/
  | bufferNotWritable (buf : Buf)
  deriving DecidableEq, Repr

/-- The state after reset with the seed and the receive queue drawn at it (R39, R301, R302). The four buffers hold
unspecified bytes: their unwritten bytes belong to the four draws from `draw` on. -/
def State.resetWith (seed : Byte) (rx : List Byte) (draw : Nat) (caps : Capacities) : State where
  cmd := 0
  status := 0
  err := 0
  errinfo := 0
  res := 0
  crc := 0
  data := 0
  linelen := 0
  mtu := 0
  timeout := 0
  plen := 0
  tlen := 0
  wlen := 0
  rlen := 0
  rplen := 0
  txhOp := 0
  txhLen := 0
  txhGroup := 0
  txhSeq := 0
  txhCmd := 0
  rxhOp := 0
  rxhFlags := 0
  rxhLen := 0
  rxhGroup := 0
  rxhSeq := 0
  rxhCmd := 0
  seq := seed
  xstate := .idle
  widx := 0
  tmr := 0
  portOpen := false
  pbuf := { gen := draw, cells := [] }
  tbuf := { gen := draw + 1, cells := [] }
  wbuf := { gen := draw + 2, cells := [] }
  rbuf := { gen := draw + 3, cells := [] }
  txout := []
  rxfifo := rx
  caps := caps
  draws := draw + 4
  program := []
  pc := 0
  stopped := false
  reads := []
  env := []

/-- The machine right after reset: 10_state.md R39. -/
def State.reset : State := State.resetWith Config.seed Config.rxAtReset 0 Config.unbounded

end Sys2Proof.Machine
end

