-- ==== Sys2Proof/Machine/Flags.lean ====
section
/-! DEFINITION. The flags of `STATUS` (10_state.md R22). No command has arithmetic condition codes (R22); the only flag
computation is the comparison that `FRM.ENC` makes for `MTUOVF` (43_frame_encode.md R168). -/

namespace Sys2Proof.Machine

/-- `STATUS.ERRF`, bit 0 (R22). -/
def State.errf (s : State) : Bool := s.status.getLsbD 0

/-- `STATUS.MTUOVF`, bit 1 (R22). -/
def State.mtuovf (s : State) : Bool := s.status.getLsbD 1

/-- A status byte with the two flags and bits 7:2 zero (R22). -/
def statusOf (errf mtuovf : Bool) : Byte :=
  (if errf then 0x01 else 0x00) ||| (if mtuovf then 0x02 else 0x00)

/-- `STATUS.ERRF <- 1` (R280). -/
def raiseErrf (status : Byte) : Byte := status ||| 0x01

/-- `STATUS.MTUOVF <- b` (R168). -/
def putMtuovf (status : Byte) (b : Bool) : Byte := (status &&& 0xFD) ||| (if b then 0x02 else 0x00)

/-- What the host reads from `STATUS`: "7:2 read as zero" (R22). -/
def readStatus (status : Byte) : Byte := status &&& 0x03

/-- `MTUOVF` of a frame of `n` wire bytes: `WLEN > MTU` (R168). -/
def mtuOverflow (n : Nat) (mtu : Word) : Bool := decide (mtu.toNat < n)

end Sys2Proof.Machine
end

