-- ==== Sys2Proof/Machine/Ops.lean ====
section
/-! DEFINITION. The named operations over buffers, streams and registers that the meanings share, the fault entry, and
what reset does. -/

namespace Sys2Proof.Machine

/-! ## 16-bit fields (00_scope.md R8, 20_memory.md R61, 30_encoding.md R92) -/

/-- `hi8(v) = v[15:8]`. -/
def hi8 (v : Half) : Byte := v.extractLsb' 8 8

/-- `lo8(v) = v[7:0]`. -/
def lo8 (v : Half) : Byte := v.extractLsb' 0 8

/-- `be16(v)`: most significant byte first. -/
def be16 (v : Half) : List Byte := [hi8 v, lo8 v]

/-- `unbe16(b0, b1) = b0 * 256 + b1`. -/
def unbe16 (b0 b1 : Byte) : Half := b0 ++ b1

/-! ## Buffers (10_state.md R32; `MemRead` and `MemWrite` of 00_scope.md R9) -/

/-- The byte written at an offset, if one is. -/
def Memory.lookup (m : Memory) (a : Nat) : Option Byte := m.cells.lookup a

/-- The byte at an offset: the one written, or the free value of a byte nothing has written (log 3). -/
def Memory.byte (m : Memory) (a : Nat) : Byte := (m.lookup a).getD (Config.freeByte m.gen a)

/-- `MemRead(BUF, a, n)`. -/
def Memory.read (m : Memory) (a : Nat) : Nat → List Byte
  | 0 => []
  | n + 1 => m.byte a :: m.read (a + 1) n

/-- The cells of a byte sequence stored from an offset on. -/
def cellsFrom (a : Nat) : List Byte → List Host.Cell
  | [] => []
  | b :: bs => (a, b) :: cellsFrom (a + 1) bs

/-- `MemWrite(BUF, a, len(bs), bs)`: these bytes and no others change; the offsets stay strictly rising. -/
def Memory.write (m : Memory) (a : Nat) (bs : List Byte) : Memory :=
  { m with
    cells := m.cells.filter (fun c => decide (c.1 < a)) ++ cellsFrom a bs
      ++ m.cells.filter (fun c => decide (a + bs.length ≤ c.1)) }

/-- A buffer of which every byte is unspecified, labelled with a draw (R40; log 5). -/
def Memory.unspecified (gen : Nat) : Memory := { gen := gen, cells := [] }

/-- Whether `n` bytes fit a capacity; every number fits an unbounded buffer (R7, R32). -/
def fits (n : Nat) : Option Nat → Bool
  | none => true
  | some cap => decide (n ≤ cap)

/-! ## The sequencer's states (45_transceive.md R201) -/

/-- An exchange is in progress: the host is blocked on `XCV` (R202). -/
def XState.busy : XState → Bool
  | .idle => false
  | .fault => false
  | .opening => true
  | .flush => true
  | .write => true
  | .waitM0 => true
  | .waitM1 => true
  | .body => true
  | .decode => true

/-- The three states that wait for a byte (R201, R218). -/
def XState.receiving : XState → Bool
  | .waitM0 => true
  | .waitM1 => true
  | .body => true
  | .idle => false
  | .opening => false
  | .flush => false
  | .write => false
  | .decode => false
  | .fault => false

/-- The states in which the serial device is open (R203, R208, R209). -/
def XState.portIsOpen : XState → Bool
  | .flush => true
  | .write => true
  | .waitM0 => true
  | .waitM1 => true
  | .body => true
  | .idle => false
  | .opening => false
  | .decode => false
  | .fault => false

/-- The machine waits: it is in a receiving state and finds `RXFIFO` empty (R218). -/
def State.waiting (s : State) : Bool := s.xstate.receiving && s.rxfifo.isEmpty

/-- The start of a wait loads the timer: "whenever the machine is in `WAIT_M0`, `WAIT_M1` or `BODY` and finds `RXFIFO`
empty it loads `TMR <- TIMEOUT` and waits" (R34, R218; log 12). -/
def beginWait (s : State) : State := if s.waiting then { s with tmr := s.timeout } else s

/-! ## Faults (60_exceptions.md) -/

/-- The value of `ERR` for a fault (R271). -/
def FaultCode.code : FaultCode → Byte
  | .ioOpen => 1
  | .ioWrite => 2
  | .ioRead => 3
  | .timeout => 4
  | .marker => 5
  | .b64 => 6
  | .short => 7
  | .len => 8
  | .crc => 9
  | .payload => 10
  | .overrun => 11
  | .cfg => 12
  | .cmd => 13

/-- `raise Fault(code, info)`, the only fault entry (R280). There is no return from a fault (R281): only `resetBy`
leaves the state it makes. -/
def raiseFault (c : FaultCode) (info : Half) (s : State) : State :=
  { s with
    err := c.code
    errinfo := info
    status := raiseErrf s.status
    portOpen := false
    xstate := .fault }

/-! ### Outputs of a faulted command are unspecified (10_state.md R40; log 5) -/

/-- `TBUF` and `TLEN` hold unspecified values. -/
def scrambleText (s : State) : State :=
  { s with
    tbuf := .unspecified s.draws
    tlen := Config.freeValue 32 (s.draws + 1)
    draws := s.draws + 2 }

/-- `RBUF` and `RLEN` hold unspecified values. -/
def scrambleRaw (s : State) : State :=
  { s with
    rbuf := .unspecified s.draws
    rlen := Config.freeValue 32 (s.draws + 1)
    draws := s.draws + 2 }

/-- `CRC`, `RXH_*` and `RPLEN` hold unspecified values. -/
def scrambleHeader (s : State) : State :=
  { s with
    crc := Config.freeValue 16 s.draws
    rxhOp := Config.freeValue 8 (s.draws + 1)
    rxhFlags := Config.freeValue 8 (s.draws + 2)
    rxhLen := Config.freeValue 16 (s.draws + 3)
    rxhGroup := Config.freeValue 16 (s.draws + 4)
    rxhSeq := Config.freeValue 8 (s.draws + 5)
    rxhCmd := Config.freeValue 8 (s.draws + 6)
    rplen := Config.freeValue 16 (s.draws + 7)
    draws := s.draws + 8 }

/-- The outputs of `FRM.ENC`: `TXH_LEN`, `CRC`, `WBUF`, `WLEN`, `MTUOVF` (R166). -/
def scrambleEncoded (s : State) : State :=
  { s with
    txhLen := Config.freeValue 16 s.draws
    crc := Config.freeValue 16 (s.draws + 1)
    wbuf := .unspecified (s.draws + 2)
    wlen := Config.freeValue 32 (s.draws + 3)
    status := putMtuovf s.status ((Config.freeValue 1 (s.draws + 4)).getLsbD 0)
    draws := s.draws + 5 }

/-- A fault of `B64.ENC`: its outputs are `TBUF`, `TLEN` (R147). -/
def faultB64Enc (c : FaultCode) (info : Half) (s : State) : State := raiseFault c info (scrambleText s)

/-- A fault of `B64.DEC`: its outputs are `RBUF`, `RLEN` (R148). -/
def faultB64Dec (c : FaultCode) (info : Half) (s : State) : State := raiseFault c info (scrambleRaw s)

/-- A fault of `FRM.ENC` (R166). -/
def faultFrmEnc (c : FaultCode) (info : Half) (s : State) : State := raiseFault c info (scrambleEncoded s)

/-- A fault of `FRM.DEC`: its outputs are `RBUF`, `RLEN`, `CRC`, `RXH_*`, `RPLEN` (R187). -/
def faultFrmDec (c : FaultCode) (info : Half) (s : State) : State :=
  raiseFault c info (scrambleHeader (scrambleRaw s))

/-- A fault of `XCV`: `TXOUT` and `RXFIFO` are exact; `TBUF`, `TLEN` and the decode outputs are unspecified (R212). -/
def faultXcv (c : FaultCode) (info : Half) (s : State) : State := faultFrmDec c info (scrambleText s)

/-! ## Commands -/

/-- A command runs only while no fault has been taken: "If `STATUS.ERRF = 1` when the write occurs, nothing happens"
(30_encoding.md R94, 60_exceptions.md R282; log 19). -/
def command (s : State) (effect : State → State) : Host.Outcome State Fault Refusal :=
  .next (if s.errf then s else effect s)

/-! ## Reset (70_reset_and_hazards.md R300 to R302) -/

/-- Reset of a running machine: every piece of the block's state takes its reset value, whatever was in progress; the
host's program and the rest of the environment script stand (log 15). -/
def resetBy (seed : Byte) (rx : List Byte) (s : State) : State :=
  { State.resetWith seed rx s.draws s.caps with program := s.program, env := s.env }

end Sys2Proof.Machine
end

