-- ==== Sys2Proof/Machine/Operands.lean ====
section
/-! DEFINITION. Operand forms. A command's operands are fixed registers and buffers (30_encoding.md R93); a bus
operation names a register by its number or a buffer and an offset (46_host_protocol.md R240). -/

namespace Sys2Proof.Machine

/-! ## The register table (10_state.md R21) -/

/-- The number of a register. -/
def Reg.number : Reg → Nat
  | .CMD => 0x00
  | .STATUS => 0x01
  | .ERR => 0x02
  | .ERRINFO => 0x03
  | .RES => 0x04
  | .CRC => 0x05
  | .DATA => 0x06
  | .LINELEN => 0x07
  | .MTU => 0x08
  | .TIMEOUT => 0x09
  | .PLEN => 0x0A
  | .TLEN => 0x0B
  | .WLEN => 0x0C
  | .RLEN => 0x0D
  | .RPLEN => 0x0E
  | .TXH_OP => 0x10
  | .TXH_FLAGS => 0x11
  | .TXH_LEN => 0x12
  | .TXH_GROUP => 0x13
  | .TXH_SEQ => 0x14
  | .TXH_CMD => 0x15
  | .RXH_OP => 0x18
  | .RXH_FLAGS => 0x19
  | .RXH_LEN => 0x1A
  | .RXH_GROUP => 0x1B
  | .RXH_SEQ => 0x1C
  | .RXH_CMD => 0x1D

/-- The register a number names; 0x0F, 0x16, 0x17, 0x1E and above name none. -/
def regOfNumber : Nat → Option Reg
  | 0x00 => some .CMD
  | 0x01 => some .STATUS
  | 0x02 => some .ERR
  | 0x03 => some .ERRINFO
  | 0x04 => some .RES
  | 0x05 => some .CRC
  | 0x06 => some .DATA
  | 0x07 => some .LINELEN
  | 0x08 => some .MTU
  | 0x09 => some .TIMEOUT
  | 0x0A => some .PLEN
  | 0x0B => some .TLEN
  | 0x0C => some .WLEN
  | 0x0D => some .RLEN
  | 0x0E => some .RPLEN
  | 0x10 => some .TXH_OP
  | 0x11 => some .TXH_FLAGS
  | 0x12 => some .TXH_LEN
  | 0x13 => some .TXH_GROUP
  | 0x14 => some .TXH_SEQ
  | 0x15 => some .TXH_CMD
  | 0x18 => some .RXH_OP
  | 0x19 => some .RXH_FLAGS
  | 0x1A => some .RXH_LEN
  | 0x1B => some .RXH_GROUP
  | 0x1C => some .RXH_SEQ
  | 0x1D => some .RXH_CMD
  | _ => none

/-- The width of a register in bits. -/
def Reg.width : Reg → Nat
  | .CMD => 8
  | .STATUS => 8
  | .ERR => 8
  | .ERRINFO => 16
  | .RES => 8
  | .CRC => 16
  | .DATA => 8
  | .LINELEN => 16
  | .MTU => 32
  | .TIMEOUT => 32
  | .PLEN => 16
  | .TLEN => 32
  | .WLEN => 32
  | .RLEN => 32
  | .RPLEN => 16
  | .TXH_OP => 8
  | .TXH_FLAGS => 8
  | .TXH_LEN => 16
  | .TXH_GROUP => 16
  | .TXH_SEQ => 8
  | .TXH_CMD => 8
  | .RXH_OP => 8
  | .RXH_FLAGS => 8
  | .RXH_LEN => 16
  | .RXH_GROUP => 16
  | .RXH_SEQ => 8
  | .RXH_CMD => 8

/-- The register is marked R or RW. -/
def Reg.readable : Reg → Bool
  | .CMD => false
  | _ => true

/-- The register is marked W or RW. -/
def Reg.writable : Reg → Bool
  | .CMD => true
  | .DATA => true
  | .LINELEN => true
  | .MTU => true
  | .TIMEOUT => true
  | .PLEN => true
  | .TLEN => true
  | .TXH_OP => true
  | .TXH_GROUP => true
  | .TXH_SEQ => true
  | .TXH_CMD => true
  | _ => false

/-- `x[REG]`, zero-extended to a number (R242). `STATUS` bits 7:2 read as zero (R22); `TXH_FLAGS` is hardwired `0x00`
(R29). -/
def readReg (r : Reg) (s : State) : Nat :=
  match r with
  | .CMD => s.cmd.toNat
  | .STATUS => (readStatus s.status).toNat
  | .ERR => s.err.toNat
  | .ERRINFO => s.errinfo.toNat
  | .RES => s.res.toNat
  | .CRC => s.crc.toNat
  | .DATA => s.data.toNat
  | .LINELEN => s.linelen.toNat
  | .MTU => s.mtu.toNat
  | .TIMEOUT => s.timeout.toNat
  | .PLEN => s.plen.toNat
  | .TLEN => s.tlen.toNat
  | .WLEN => s.wlen.toNat
  | .RLEN => s.rlen.toNat
  | .RPLEN => s.rplen.toNat
  | .TXH_OP => s.txhOp.toNat
  | .TXH_FLAGS => 0
  | .TXH_LEN => s.txhLen.toNat
  | .TXH_GROUP => s.txhGroup.toNat
  | .TXH_SEQ => s.txhSeq.toNat
  | .TXH_CMD => s.txhCmd.toNat
  | .RXH_OP => s.rxhOp.toNat
  | .RXH_FLAGS => s.rxhFlags.toNat
  | .RXH_LEN => s.rxhLen.toNat
  | .RXH_GROUP => s.rxhGroup.toNat
  | .RXH_SEQ => s.rxhSeq.toNat
  | .RXH_CMD => s.rxhCmd.toNat

/-- `x[REG] <- v` by the host (R241): only a register marked W or RW has a case that changes anything. Writing `CMD`
stores the code (log 14); running the command is the issue of the command (30_encoding.md R94). -/
def writeReg (r : Reg) (v : Nat) (s : State) : State :=
  match r with
  | .CMD => { s with cmd := BitVec.ofNat 8 v }
  | .DATA => { s with data := BitVec.ofNat 8 v }
  | .LINELEN => { s with linelen := BitVec.ofNat 16 v }
  | .MTU => { s with mtu := BitVec.ofNat 32 v }
  | .TIMEOUT => { s with timeout := BitVec.ofNat 32 v }
  | .PLEN => { s with plen := BitVec.ofNat 16 v }
  | .TLEN => { s with tlen := BitVec.ofNat 32 v }
  | .TXH_OP => { s with txhOp := BitVec.ofNat 8 v }
  | .TXH_GROUP => { s with txhGroup := BitVec.ofNat 16 v }
  | .TXH_SEQ => { s with txhSeq := BitVec.ofNat 8 v }
  | .TXH_CMD => { s with txhCmd := BitVec.ofNat 8 v }
  | _ => s

/-- The value is at most the capacity of the buffer whose length the register holds (R28, R41). -/
def lengthFits (r : Reg) (v : Nat) (caps : Capacities) : Bool :=
  match r with
  | .PLEN => fits v caps.pbufMax
  | .TLEN => fits v caps.tbuf
  | _ => true

/-! ## Buffers by name -/

/-- The contents of a buffer. -/
def State.buffer (s : State) : Buf → Memory
  | .PBUF => s.pbuf
  | .TBUF => s.tbuf
  | .WBUF => s.wbuf
  | .RBUF => s.rbuf

/-- The length register of a buffer (R28, R32). -/
def State.lengthOf (s : State) : Buf → Nat
  | .PBUF => s.plen.toNat
  | .TBUF => s.tlen.toNat
  | .WBUF => s.wlen.toNat
  | .RBUF => s.rlen.toNat

/-- The capacity of a buffer. -/
def capacityOf (c : Capacities) : Buf → Option Nat
  | .PBUF => c.pbufMax
  | .TBUF => c.tbuf
  | .WBUF => c.wbuf
  | .RBUF => c.rbuf

/-- The buffers the host may write (R32). -/
def Buf.writable : Buf → Bool
  | .PBUF => true
  | .TBUF => true
  | .WBUF => false
  | .RBUF => false

/-- A host write to a buffer; only `PBUF` and `TBUF` have a case that changes anything (R32, R243). -/
def State.putBuffer (s : State) (b : Buf) (m : Memory) : State :=
  match b with
  | .PBUF => { s with pbuf := m }
  | .TBUF => { s with tbuf := m }
  | .WBUF => s
  | .RBUF => s

/-- The byte `rdb` finds at an offset: the buffer's byte below its length register, an unspecified byte at or beyond it,
of the next draw (R244; log 4). -/
def hostByte (s : State) (b : Buf) (a : Nat) : Byte :=
  if a < s.lengthOf b then (s.buffer b).byte a else Config.freeByte s.draws a

/-- The bytes `rdb BUF, off, n` returns (R244). -/
def hostBytes (s : State) (b : Buf) (off : Nat) : Nat → List Byte
  | 0 => []
  | n + 1 => hostByte s b off :: hostBytes s b (off + 1) n

/-! ## The operands of the commands (10_state.md R28) -/

/-- `PBUF[0 .. PLEN)`, the operand of `CRC.BUF`, `B64.ENC` and the payload of `FRM.ENC`. -/
def payloadOperand (s : State) : List Byte := s.pbuf.read 0 s.plen.toNat

/-- `TBUF[0 .. TLEN)`, the text operand of `B64.DEC` and `FRM.DEC`. -/
def textOperand (s : State) : List Byte := s.tbuf.read 0 s.tlen.toNat

/-- `WBUF[0 .. WLEN)`, the wire bytes `XCV` transmits. -/
def wireOperand (s : State) : List Byte := s.wbuf.read 0 s.wlen.toNat

end Sys2Proof.Machine
end

