-- ==== Sys2Proof/Machine/Bus.lean ====
section
/-! DEFINITION. The host's bus operations on registers and buffers (46_host_protocol.md R240 to R244) and the refusals of
10_state.md R41. The write to `CMD`, which runs a command, is in Machine/Turn.lean. -/

namespace Sys2Proof.Machine

/-- Why a write of a register is refused, if it is (R41, R241). -/
def writeRefusal (caps : Capacities) (n v : Nat) : Option Refusal :=
  match regOfNumber n with
  | none => some (.noSuchRegister n)
  | some r =>
    if r.writable = false then some (.notWritable r)
    else if 2 ^ r.width ≤ v then some (.valueTooWide r v)
    else if lengthFits r v caps = false then some (.lengthBeyondCapacity r v)
    else none

/-- Why a read of a register is refused, if it is (R41, R242). -/
def readRefusal (n : Nat) : Option Refusal :=
  match regOfNumber n with
  | none => some (.noSuchRegister n)
  | some r => if r.readable then none else some (.notReadable r)

/-- Why a bus operation is refused, if it is: "a well-formedness check on host programs rejects them" (R41). -/
def busRefusal (caps : Capacities) : BusOp → Option Refusal
  | .wr n v => writeRefusal caps n v
  | .rd n => readRefusal n
  | .wrb b off bytes =>
    if b.writable = false then some (.bufferNotWritable b)
    else if fits (off + bytes.length) (capacityOf caps b) then none
    else some (.beyondCapacity b off bytes.length)
  | .rdb b off n => if fits (off + n) (capacityOf caps b) then none else some (.beyondCapacity b off n)

/-- What a read returns is recorded for the host; no block state changes (R66, R242, R244; log 20). -/
def returnToHost (v : BusValue) (s : State) : State := { s with reads := s.reads ++ [v] }

/-- `wr REG, v` on a register other than `CMD` (R241). -/
def busWrite (n v : Nat) (s : State) : State :=
  match regOfNumber n with
  | none => s
  | some r => writeReg r v s

/-- `rd REG` (R242). -/
def busRead (n : Nat) (s : State) : State :=
  match regOfNumber n with
  | none => s
  | some r => returnToHost (.reg (readReg r s)) s

/-- `wrb BUF, off, bytes`: the length register is not changed (R243). -/
def busWriteBytes (b : Buf) (off : Nat) (bytes : List Byte) (s : State) : State :=
  s.putBuffer b ((s.buffer b).write off bytes)

/-- `rdb BUF, off, n` (R244). A read that reaches the length register takes a draw for the unspecified bytes (log 4). -/
def busReadBytes (b : Buf) (off n : Nat) (s : State) : State :=
  let t := returnToHost (.bytes (hostBytes s b off n)) s
  if s.lengthOf b < off + n then { t with draws := t.draws + 1 } else t

end Sys2Proof.Machine
end

