-- ==== Sys2Proof/Machine/Base64.lean ====
section
/-! DEFINITION. The base64 encoder and decoder (42_base64.md). Alphabet, padding and bit assembly are the spec's, from
its general-knowledge passages (93 U2) and decision D9 (log 16). -/

namespace Sys2Proof.Machine

/-- The padding character `=` (R141). -/
def padChar : Byte := 0x3D

/-- `A[v]`, in the closed form of R140. -/
def b64Char (v : BitVec 6) : Byte :=
  if v.toNat < 26 then BitVec.ofNat 8 (0x41 + v.toNat)
  else if v.toNat < 52 then BitVec.ofNat 8 (0x61 + (v.toNat - 26))
  else if v.toNat < 62 then BitVec.ofNat 8 (0x30 + (v.toNat - 52))
  else if v.toNat = 62 then 0x2B
  else 0x2F

/-- `V(c)`, or nothing when `c` is not in the alphabet (R144). -/
def b64Value (c : Byte) : Option (BitVec 6) :=
  let n := c.toNat
  if 0x41 ≤ n ∧ n ≤ 0x5A then some (BitVec.ofNat 6 (n - 0x41))
  else if 0x61 ≤ n ∧ n ≤ 0x7A then some (BitVec.ofNat 6 (n - 0x61 + 26))
  else if 0x30 ≤ n ∧ n ≤ 0x39 then some (BitVec.ofNat 6 (n - 0x30 + 52))
  else if n = 0x2B then some 62
  else if n = 0x2F then some 63
  else none

/-- The four 6-bit values of three bytes, most significant first (R142). -/
def sextets (b0 b1 b2 : Byte) : BitVec 6 × BitVec 6 × BitVec 6 × BitVec 6 :=
  let v : BitVec 24 := b0 ++ b1 ++ b2
  (v.extractLsb' 18 6, v.extractLsb' 12 6, v.extractLsb' 6 6, v.extractLsb' 0 6)

/-- `b64enc(s)` (R142): full groups of three bytes, then one or two bytes with zero bytes supplied and padding. -/
def b64enc : List Byte → List Byte
  | [] => []
  | [b0] =>
    let v := sextets b0 0 0
    [b64Char v.1, b64Char v.2.1, padChar, padChar]
  | [b0, b1] =>
    let v := sextets b0 b1 0
    [b64Char v.1, b64Char v.2.1, b64Char v.2.2.1, padChar]
  | b0 :: b1 :: b2 :: rest =>
    let v := sextets b0 b1 b2
    b64Char v.1 :: b64Char v.2.1 :: b64Char v.2.2.1 :: b64Char v.2.2.2 :: b64enc rest

/-- Four characters of the form `x x x x` (R145). -/
def b64Full (c0 c1 c2 c3 : Byte) : Option (List Byte) :=
  match b64Value c0, b64Value c1, b64Value c2, b64Value c3 with
  | some v0, some v1, some v2, some v3 =>
    let v : BitVec 24 := v0 ++ v1 ++ v2 ++ v3
    some [v.extractLsb' 16 8, v.extractLsb' 8 8, v.extractLsb' 0 8]
  | _, _, _, _ => none

/-- Three characters and padding, the form `x x x =`; trailing bits must be zero (R145). -/
def b64Pad1 (c0 c1 c2 : Byte) : Option (List Byte) :=
  match b64Value c0, b64Value c1, b64Value c2 with
  | some v0, some v1, some v2 =>
    let v : BitVec 18 := v0 ++ v1 ++ v2
    if v.extractLsb' 0 2 = 0 then some [v.extractLsb' 10 8, v.extractLsb' 2 8] else none
  | _, _, _ => none

/-- Two characters and padding, the form `x x = =`; trailing bits must be zero (R145). -/
def b64Pad2 (c0 c1 : Byte) : Option (List Byte) :=
  match b64Value c0, b64Value c1 with
  | some v0, some v1 =>
    let v : BitVec 12 := v0 ++ v1
    if v.extractLsb' 0 4 = 0 then some [v.extractLsb' 4 8] else none
  | _, _ => none

/-- The last group of a text, which alone may be padded (R145). -/
def b64Last (c0 c1 c2 c3 : Byte) : Option (List Byte) :=
  if c2 = padChar then (if c3 = padChar then b64Pad2 c0 c1 else none)
  else if c3 = padChar then b64Pad1 c0 c1 c2
  else b64Full c0 c1 c2 c3

/-- `b64dec(t)`, `none` for `bad` (R145): it accepts exactly the texts `b64enc` makes. -/
def b64dec : List Byte → Option (List Byte)
  | [] => some []
  | [c0, c1, c2, c3] => b64Last c0 c1 c2 c3
  | c0 :: c1 :: c2 :: c3 :: rest =>
    match b64Full c0 c1 c2 c3, b64dec rest with
    | some bs, some out => some (bs ++ out)
    | _, _ => none
  | _ => none

/-- The effect of `B64.ENC` (R147). Bytes of `TBUF` at and beyond the new `TLEN` are unspecified: a new draw (log 6). -/
def encodeText (s : State) : State :=
  let t := b64enc (payloadOperand s)
  if fits t.length s.caps.tbuf then
    { s with
      tbuf := (Memory.unspecified s.draws).write 0 t
      tlen := BitVec.ofNat 32 t.length
      draws := s.draws + 1 }
  else faultB64Enc .cfg 3 s

/-- `B64.ENC` (R147). -/
def execB64Enc (s : State) : Host.Outcome State Fault Refusal := command s encodeText

/-- The effect of `B64.DEC` (R148). Bytes of `RBUF` at and beyond the new `RLEN` keep their values: DESIGN CHOICE, log 28. -/
def decodeText (s : State) : State :=
  match b64dec (textOperand s) with
  | none => faultB64Dec .b64 0 s
  | some r =>
    if fits r.length s.caps.rbuf then
      { s with rbuf := s.rbuf.write 0 r, rlen := BitVec.ofNat 32 r.length }
    else faultB64Dec .cfg 3 s

/-- `B64.DEC` (R148). -/
def execB64Dec (s : State) : Host.Outcome State Fault Refusal := command s decodeText

end Sys2Proof.Machine
end

