-- ==== Sys2Proof/Machine/Crc.lean ====
section
/-! DEFINITION. The CRC16/XMODEM checksum calculator (41_crc.md). The parameters are the spec's, from its own
general-knowledge passage (R130, 93 U1; log 16). -/

namespace Sys2Proof.Machine

/-- The generator polynomial without its x^16 term (R130). -/
def crcPoly : Half := 0x1021

/-- One shift: bit 15 is tested, then discarded; when it was 1 the polynomial is XORed in (R131). -/
def crcShift (c : Half) : Half := if c.getLsbD 15 then (c <<< 1) ^^^ crcPoly else c <<< 1

/-- `n` shifts. -/
def crcShifts : Nat → Half → Half
  | 0, c => c
  | n + 1, c => crcShifts n (crcShift c)

/-- `crc_step(c, b)`: the byte is XORed into the high half, then eight shifts (R131). -/
def crcStep (c : Half) (b : Byte) : Half := crcShifts 8 (c ^^^ (b ++ (0 : Byte)))

/-- `crc_from(c, s)`: `crc_step` over the bytes in increasing offset (R132). -/
def crcFrom (c : Half) : List Byte → Half
  | [] => c
  | b :: bs => crcFrom (crcStep c b) bs

/-- `crc16(s)` (R132). -/
def crc16 (bs : List Byte) : Half := crcFrom 0 bs

/-- `CRC.INIT` (R134). -/
def execCrcInit (s : State) : Host.Outcome State Fault Refusal := command s fun s => { s with crc := 0 }

/-- `CRC.UPD` (R135). -/
def execCrcUpd (s : State) : Host.Outcome State Fault Refusal :=
  command s fun s => { s with crc := crcStep s.crc s.data }

/-- `CRC.BUF` (R136): the accumulator is not cleared first. -/
def execCrcBuf (s : State) : Host.Outcome State Fault Refusal :=
  command s fun s => { s with crc := crcFrom s.crc (payloadOperand s) }

end Sys2Proof.Machine
end

