-- ==== Sys2Proof/Syntax.lean ====
section
/-! DEFINITION. The instructions: one constructor per row of spec/opcode_table.json. No row has an operand field
(30_encoding.md R93). -/

namespace Sys2Proof

/-- The nine commands of 30_encoding.md R95 and the three wire symbols of R89. -/
inductive Instr where
  /-- `SEQ.NEXT`, 40_seq.md R121. -/
  | seqNext
  /-- `CRC.INIT`, 41_crc.md R134. -/
  | crcInit
  /-- `CRC.UPD`, 41_crc.md R135. -/
  | crcUpd
  /-- `CRC.BUF`, 41_crc.md R136. -/
  | crcBuf
  /-- `B64.ENC`, 42_base64.md R147. -/
  | b64Enc
  /-- `B64.DEC`, 42_base64.md R148. -/
  | b64Dec
  /-- `FRM.ENC`, 43_frame_encode.md R166. -/
  | frmEnc
  /-- `FRM.DEC`, 44_frame_decode.md R187. -/
  | frmDec
  /-- `XCV`, 45_transceive.md R202. -/
  | xcv
  /-- `MARK.START`, a wire symbol, 30_encoding.md R89. -/
  | markStart
  /-- `MARK.CONT`, a wire symbol, 30_encoding.md R89. -/
  | markCont
  /-- `TERM`, a wire symbol, 30_encoding.md R89. -/
  | term
  deriving DecidableEq, Repr

end Sys2Proof
end

