-- ==== Sys2Proof/Decode.lean ====
section
/-! DEFINITION. Decoding and encoding. Two channels carry instructions: the command register (format `C`, one byte,
30_encoding.md R93, R95) and the serial wire (formats `W2` and `W1`, R89). -/

namespace Sys2Proof

/-- Where an instruction's bytes stand. -/
inductive Channel where
  /-- A value written to `CMD` (R93, R94). -/
  | command
  /-- Bytes on the serial line (R89): wire symbols "are never written to `CMD`". -/
  | wire
  deriving DecidableEq, Repr

/-- Why bytes are no instruction. -/
inductive DecodeError where
  /-- One of the 247 illegal command codes (R96). -/
  | illegalCommand (code : Byte)
  /-- Bytes that are none of the three wire symbols (R89). -/
  | notASymbol (bytes : List Byte)
  /-- A command is exactly one byte (R93). -/
  | notOneByte (bytes : List Byte)
  deriving DecidableEq, Repr

/-- Field `unit`, bits 7:4 of a command code (R93). -/
def commandUnit (code : Byte) : BitVec 4 := code.extractLsb' 4 4

/-- Field `fn`, bits 3:0 of a command code (R93). -/
def commandFn (code : Byte) : BitVec 4 := code.extractLsb' 0 4

/-- The complete decode of `CMD` (R93, R95, R96), by `unit` and `fn`. -/
def decodeCommand (code : Byte) : Except DecodeError Instr :=
  match (commandUnit code).toNat, (commandFn code).toNat with
  | 1, 0 => .ok .seqNext
  | 2, 0 => .ok .crcInit
  | 2, 1 => .ok .crcUpd
  | 2, 2 => .ok .crcBuf
  | 3, 0 => .ok .b64Enc
  | 3, 1 => .ok .b64Dec
  | 4, 0 => .ok .frmEnc
  | 4, 1 => .ok .frmDec
  | 5, 0 => .ok .xcv
  | _, _ => .error (.illegalCommand code)

/-- The start marker (R89). -/
def startMarker : List Byte := [0x06, 0x09]

/-- The continuation marker (R89). -/
def contMarker : List Byte := [0x04, 0x14]

/-- The line terminator (R89). -/
def terminator : Byte := 0x0A

/-- The wire symbols (R89), first byte on the wire first. -/
def decodeWire (bytes : List Byte) : Except DecodeError Instr :=
  if bytes = startMarker then .ok .markStart
  else if bytes = contMarker then .ok .markCont
  else if bytes = [terminator] then .ok .term
  else .error (.notASymbol bytes)

/-- Decoding on either channel, total on any bytes. -/
def decode : Channel → List Byte → Except DecodeError Instr
  | .command, [code] => decodeCommand code
  | .command, bytes => .error (.notOneByte bytes)
  | .wire, bytes => decodeWire bytes

/-- The channel of an instruction: the nine commands (R95), the three symbols (R89). -/
def channelOf : Instr → Channel
  | .seqNext => .command
  | .crcInit => .command
  | .crcUpd => .command
  | .crcBuf => .command
  | .b64Enc => .command
  | .b64Dec => .command
  | .frmEnc => .command
  | .frmDec => .command
  | .xcv => .command
  | .markStart => .wire
  | .markCont => .wire
  | .term => .wire

/-- The bytes of an instruction: the `match` column of R95 and the symbols of R89. -/
def encode : Instr → List Byte
  | .seqNext => [0x10]
  | .crcInit => [0x20]
  | .crcUpd => [0x21]
  | .crcBuf => [0x22]
  | .b64Enc => [0x30]
  | .b64Dec => [0x31]
  | .frmEnc => [0x40]
  | .frmDec => [0x41]
  | .xcv => [0x50]
  | .markStart => [0x06, 0x09]
  | .markCont => [0x04, 0x14]
  | .term => [0x0A]

/-- The bytes of a table row's number `w` of `nbits` bits as the hardware meets them: one byte, or the two bytes of a
`W2` symbol, "first byte on the wire in the high half of `match`" (R89; log 25). -/
def tableBytes (nbits w : Nat) : Option (List Byte) :=
  if 2 ^ nbits ≤ w then none
  else if nbits = 8 then some [BitVec.ofNat 8 w]
  else if nbits = 16 then some [BitVec.ofNat 8 (w / 256), BitVec.ofNat 8 w]
  else none

/-- The channel a table number is for: a one-byte number that is a command code or no symbol goes to `CMD`; the
symbols, and every two-byte number, go to the wire (log 25). -/
def tableChannel (bytes : List Byte) : Channel :=
  match bytes with
  | [b] => if b = terminator then .wire else .command
  | _ => .wire

/-- The instruction the decoder reads from a row of spec/opcode_table.json. -/
def decodeTableWord (nbits w : Nat) : Option Instr :=
  match tableBytes nbits w with
  | none => none
  | some bytes => (decode (tableChannel bytes) bytes).toOption

end Sys2Proof
end

