-- ==== Sys2Proof/Machine/FrameEncode.lean ====
section
/-! DEFINITION. The frame assembler (43_frame_encode.md). -/

namespace Sys2Proof.Machine

/-- The six header fields (30_encoding.md R81). -/
structure Header where
  /-- Offset 0, one byte. -/
  op : Byte
  /-- Offset 1, one byte. -/
  flags : Byte
  /-- Offset 2, two bytes. -/
  length : Half
  /-- Offset 4, two bytes. -/
  group : Half
  /-- Offset 6, one byte. -/
  sequence : Byte
  /-- Offset 7, one byte. -/
  commandId : Byte
  deriving DecidableEq, Repr

/-- The eight bytes of a header (R81, R160). -/
def headerBytes (h : Header) : List Byte :=
  [h.op, h.flags] ++ be16 h.length ++ be16 h.group ++ [h.sequence, h.commandId]

/-- The raw frame of a header, a payload and a checksum (R85, R162): total-length, header, payload, checksum. -/
def rawFrame (h : Header) (payload : List Byte) (c : Half) : List Byte :=
  be16 (BitVec.ofNat 16 (payload.length + 10)) ++ headerBytes h ++ payload ++ be16 c

/-- The header `FRM.ENC` serialises (R160): the caller's fields, `flags` zero, `length` the payload's byte count. -/
def encodeHeader (op : Byte) (group : Half) (seq id : Byte) (payload : List Byte) : Header :=
  { op := op, flags := 0, length := BitVec.ofNat 16 payload.length, group := group, sequence := seq, commandId := id }

/-- `frame_bytes(op, group, seq, id, D)` (R160 to R162): the checksum covers header and payload (R161). -/
def frameBytes (op : Byte) (group : Half) (seq id : Byte) (payload : List Byte) : List Byte :=
  let h := encodeHeader op group seq id payload
  rawFrame h payload (crc16 (headerBytes h ++ payload))

/-- Lines of at most `w` characters, each marker, text, terminator (R88, R164). `fuel` bounds the number of lines; the
length of the text is enough whenever `w` is at least 1. -/
def splitLines (w : Nat) : Nat → List Byte → List Byte → List Byte
  | 0, _, _ => []
  | fuel + 1, marker, t =>
    if t.isEmpty then []
    else marker ++ t.take w ++ [terminator] ++ splitLines w fuel contMarker (t.drop w)

/-- `line_split(T, W)` (R164). -/
def lineSplit (t : List Byte) (w : Nat) : List Byte := splitLines w t.length startMarker t

/-- The column-counter splitter of R169: before a character at column 0 the marker, after the `w`-th the terminator. -/
def streamLines (w : Nat) (col : Nat) (marker : List Byte) : List Byte → List Byte
  | [] => if 0 < col then [terminator] else []
  | c :: cs =>
    (if col = 0 then marker else []) ++
      (if col + 1 = w then c :: terminator :: streamLines w 0 contMarker cs
      else c :: streamLines w (col + 1) marker cs)

/-- The largest payload: header, payload and checksum must fit the 16-bit length prefix (R7, R167). -/
def maxPayload : Nat := 65525

/-- The wire bytes of the frame that the block's registers and `PBUF` describe (R166). -/
def wireBytes (s : State) : List Byte :=
  lineSplit (b64enc (frameBytes s.txhOp s.txhGroup s.txhSeq s.txhCmd (payloadOperand s))) (s.linelen.toNat - 4)

/-- The checksum of that frame (R161, R166). -/
def encodedCrc (s : State) : Half :=
  crc16 (headerBytes (encodeHeader s.txhOp s.txhGroup s.txhSeq s.txhCmd (payloadOperand s)) ++ payloadOperand s)

/-- The effect of `FRM.ENC` (R166 to R168); the tests in the order of R277. Bytes of `WBUF` at and beyond the new `WLEN`
keep their values: DESIGN CHOICE, log 28. -/
def encodeFrame (s : State) : State :=
  if s.linelen.toNat < 5 then faultFrmEnc .cfg 1 s
  else if maxPayload < s.plen.toNat then faultFrmEnc .cfg 2 s
  else if fits (wireBytes s).length s.caps.wbuf then
    { s with
      txhLen := s.plen
      crc := encodedCrc s
      wbuf := s.wbuf.write 0 (wireBytes s)
      wlen := BitVec.ofNat 32 (wireBytes s).length
      status := putMtuovf s.status (mtuOverflow (wireBytes s).length s.mtu) }
  else faultFrmEnc .cfg 3 s

/-- `FRM.ENC` (R166). -/
def execFrmEnc (s : State) : Host.Outcome State Fault Refusal := command s encodeFrame

end Sys2Proof.Machine
end

