-- ==== Sys2Proof/Machine/FrameDecode.lean ====
section
/-! DEFINITION. The frame disassembler (44_frame_decode.md). -/

namespace Sys2Proof.Machine

/-- What `frame_parse` gives for a frame that passed every check (R180). -/
structure ParsedFrame where
  /-- The header as received; nothing in it is validated (R185, R188). -/
  header : Header
  /-- The payload, `R[10 .. Dn-2)` (R186). -/
  payload : List Byte
  /-- The raw frame. -/
  raw : List Byte
  /-- The checksum computed over header and payload. -/
  sum : Half
  deriving DecidableEq, Repr

/-- Byte `i` of a byte sequence that is long enough (R8); zero beyond its end, where no rule reads. -/
def byteAt (bs : List Byte) (i : Nat) : Byte := bs.getD i 0

/-- The two-byte field at offset `i` (30_encoding.md R92). -/
def fieldAt (bs : List Byte) (i : Nat) : Half := unbe16 (byteAt bs i) (byteAt bs (i + 1))

/-- `R[2 .. Dn-2)`: header and payload (R184). -/
def coveredBytes (raw : List Byte) : List Byte := (raw.drop 2).take (raw.length - 4)

/-- The header split (R185). -/
def headerOf (raw : List Byte) : Header :=
  { op := byteAt raw 2
    flags := byteAt raw 3
    length := fieldAt raw 4
    group := fieldAt raw 6
    sequence := byteAt raw 8
    commandId := byteAt raw 9 }

/-- The checks on a decoded raw frame, in the order of R181: minimum length (R182), length prefix (R183), checksum
(R184). A failure is a fault code and its detail (R272). -/
def rawParse (raw : List Byte) : Except (FaultCode × Half) ParsedFrame :=
  if raw.length < 12 then .error (.short, BitVec.ofNat 16 raw.length)
  else if (fieldAt raw 0).toNat ≠ raw.length - 2 then .error (.len, fieldAt raw 0)
  else if crc16 (coveredBytes raw) ≠ fieldAt raw (raw.length - 2) then .error (.crc, crc16 (coveredBytes raw))
  else .ok
    { header := headerOf raw
      payload := (raw.drop 10).take (raw.length - 12)
      raw := raw
      sum := crc16 (coveredBytes raw) }

/-- `frame_parse(t)` (R180). -/
def frameParse (t : List Byte) : Except (FaultCode × Half) ParsedFrame :=
  match b64dec t with
  | none => .error (.b64, 0)
  | some raw => rawParse raw

/-- The outputs of a successful decode (R187). Bytes of `RBUF` at and beyond the new `RLEN` keep their values: DESIGN
CHOICE, log 28. -/
def deliverFrame (f : ParsedFrame) (s : State) : State :=
  { s with
    rbuf := s.rbuf.write 0 f.raw
    rlen := BitVec.ofNat 32 f.raw.length
    crc := f.sum
    rxhOp := f.header.op
    rxhFlags := f.header.flags
    rxhLen := f.header.length
    rxhGroup := f.header.group
    rxhSeq := f.header.sequence
    rxhCmd := f.header.commandId
    rplen := BitVec.ofNat 16 (f.raw.length - 12) }

/-- The pseudocode of `FRM.DEC` (R187), used by `FRM.DEC` and by the `DECODE` step of `XCV` (45_transceive.md R210),
which differ in the outputs a fault leaves unspecified. -/
def decodeFrameWith (onFault : FaultCode → Half → State → State) (s : State) : State :=
  match frameParse (textOperand s) with
  | .error (code, info) => onFault code info s
  | .ok f => if fits f.raw.length s.caps.rbuf then deliverFrame f s else onFault .cfg 3 s

/-- `FRM.DEC` (R187). -/
def execFrmDec (s : State) : Host.Outcome State Fault Refusal := command s (decodeFrameWith faultFrmDec)

end Sys2Proof.Machine
end

