-- ==== Sys2Proof/Machine/Seq.lean ====
section
/-! DEFINITION. The sequence number generator (40_seq.md). -/

namespace Sys2Proof.Machine

/-- `next_id()` (R121): `RES` gets the value before the advance, `SEQ` advances by one modulo 256. -/
def nextId (s : State) : State := { s with res := s.seq, seq := s.seq + 1 }

/-- `SEQ.NEXT` (R121); it never faults. -/
def execSeqNext (s : State) : Host.Outcome State Fault Refusal := command s nextId

end Sys2Proof.Machine
end

