-- ==== Sys2Proof/Machine/Transport.lean ====
section
/-! DEFINITION. The serial framing state machine (45_transceive.md): the steps of `XCV`, the arrival of bytes, and the
events of the serial port's environment. -/

namespace Sys2Proof.Machine

/-- `XCV` (R202): the command sets `XSTATE <- OPENING`; the steps of R203 to R210 follow, one by one, and the host is
blocked until `XSTATE` is `IDLE` or `FAULT` (log 18). -/
def execXcv (s : State) : Host.Outcome State Fault Refusal := command s fun s => { s with xstate := .opening }

/-! ## The machine's own steps -/

/-- The open succeeds (R203). -/
def openStep (s : State) : State := { s with portOpen := true, xstate := .flush }

/-- Stale input is discarded, all at once (R204). -/
def flushStep (s : State) : State := { s with rxfifo := [], widx := 0, xstate := .write }

/-- One byte is transmitted, or, when all are, the wait for the marker begins (R205): `TLEN` is
cleared and the bytes of `TBUF` keep their values (DESIGN CHOICE, log 29). -/
def writeStep (s : State) : State :=
  if s.widx.toNat < s.wlen.toNat then
    { s with txout := s.txout ++ [s.wbuf.byte s.widx.toNat], widx := s.widx + 1 }
  else beginWait { s with tlen := 0, xstate := .waitM0 }

/-- A content byte is stored at `TBUF[TLEN]` and `TLEN` advances (R208). A line of 2^32 bytes would pass the register's
32 bits; the spec states no result there, so the value is free (log 7). Bytes of `TBUF` beyond the one
stored keep their values (DESIGN CHOICE, log 29). -/
def appendText (b : Byte) (s : State) : State :=
  let tbuf := s.tbuf.write s.tlen.toNat [b]
  if s.tlen.toNat + 1 < 2 ^ 32 then { s with tbuf := tbuf, tlen := s.tlen + 1 }
  else { s with tbuf := tbuf, tlen := Config.freeValue 32 s.draws, draws := s.draws + 1 }

/-- The receiver takes a byte that was just popped (R206 to R209, 30_encoding.md R91). -/
def takeByte (b : Byte) (s : State) : State :=
  match s.xstate with
  | .waitM0 => if b = 0x06 then beginWait { s with xstate := .waitM1 } else faultXcv .marker ((0x00 : Byte) ++ b) s
  | .waitM1 => if b = 0x09 then beginWait { s with xstate := .body } else faultXcv .marker ((0x01 : Byte) ++ b) s
  | .body =>
    if b = terminator then { s with xstate := .decode, portOpen := false }
    else if s.caps.tbuf = some s.tlen.toNat then faultXcv .overrun 0 s
    else beginWait (appendText b s)
  | .idle => s
  | .opening => s
  | .flush => s
  | .write => s
  | .decode => s
  | .fault => s

/-- A receiving state with a byte available pops it (R206); with none it waits (R218). -/
def receiveStep (s : State) : State :=
  match s.rxfifo with
  | [] => s
  | b :: rest => takeByte b { s with rxfifo := rest }

/-- The check of the frame (R210): on success `XSTATE <- IDLE` and the command is complete; a fault overrides it. -/
def decodeStep (s : State) : State := decodeFrameWith faultXcv { s with xstate := .idle }

/-- One step of the framing state machine when nothing fails (R213). -/
def xcvStep (s : State) : State :=
  match s.xstate with
  | .opening => openStep s
  | .flush => flushStep s
  | .write => writeStep s
  | .waitM0 => receiveStep s
  | .waitM1 => receiveStep s
  | .body => receiveStep s
  | .decode => decodeStep s
  | .idle => s
  | .fault => s

/-! ## The remote device (R216) -/

/-- One byte arrives at the tail of `RXFIFO`, in any state. It ends the wait of a machine that waits on the empty queue:
"the remote device appends a byte; then the branch above applies" (R206; log 10). -/
def arriveByte (b : Byte) (s : State) : State :=
  let t := { s with rxfifo := s.rxfifo ++ [b] }
  if s.waiting then receiveStep t else t

/-- Bytes arrive in order (R74, R100 `dev.push`). -/
def arriveBytes : List Byte → State → State
  | [], s => s
  | b :: bs, s => arriveBytes bs (arriveByte b s)

/-! ## The environment of the serial port (R217, R218) -/

/-- The open fails (R203). -/
def failOpen (s : State) : State := faultXcv .ioOpen 0 s

/-- The write of `WBUF[WIDX]` fails (R205): `ERRINFO` is `WIDX mod 65536`. -/
def failWrite (s : State) : State := faultXcv .ioWrite (s.widx.setWidth 16) s

/-- A read fails (R206, R217). -/
def failRead (s : State) : State := faultXcv .ioRead 0 s

/-- The timeout fires (R218): the timer has run out (R34; log 12). -/
def fireTimeout (s : State) : State := faultXcv .timeout 0 { s with tmr := 0 }

/-- One second passes (R34): the timer counts down while the machine waits, and when it reaches zero the timeout
fires; at any other time it has no effect (log 12). -/
def tickTimer (s : State) : State :=
  if s.waiting then
    if s.tmr.toNat ≤ 1 then fireTimeout s else { s with tmr := s.tmr - 1 }
  else s

/-- An event is possible only where the spec says it can occur (R206, R217, R218, R276; log 21): a failure at the open, at
the write of its byte, or at a wait on the empty queue; the timeout at such a wait only. -/
def EnvEvent.enabled (s : State) : EnvEvent → Bool
  | .proceed => true
  | .push _ => true
  | .await x => decide (s.xstate = x)
  | .openFail => decide (s.xstate = .opening)
  | .writeFail n => decide (s.xstate = .write) && decide (s.widx.toNat < s.wlen.toNat) && decide (s.widx.toNat = n)
  | .readFail => s.waiting
  | .timeout => s.waiting
  | .tick => true
  | .reset _ _ => true

end Sys2Proof.Machine
end

