-- ==== Sys2Proof/Machine/Wire.lean ====
section
/-! DEFINITION. The wire symbols as instructions (30_encoding.md R89, R91): the remote device sends the symbol, byte by
byte, and the receiver classifies each byte by its state (log 11). -/

namespace Sys2Proof.Machine

/-- `MARK.START`, bytes 06 09: at `WAIT_M0` on an empty queue both bytes are accepted and the machine is in `BODY`. -/
def execMarkStart (s : State) : Host.Outcome State Fault Refusal := .next (arriveBytes startMarker s)

/-- `MARK.CONT`, bytes 04 14: "The receiver never recognises the continuation marker" (R91). -/
def execMarkCont (s : State) : Host.Outcome State Fault Refusal := .next (arriveBytes contMarker s)

/-- `TERM`, byte 0A: in `BODY` the line is complete (R91, R209). -/
def execTerm (s : State) : Host.Outcome State Fault Refusal := .next (arriveBytes [terminator] s)

end Sys2Proof.Machine
end

