-- ==== Sys2Proof/Machine/Dispatch.lean ====
section
/-! DEFINITION. The meaning of every instruction: one arm per constructor. -/

namespace Sys2Proof.Machine

def exec (i : Instr) (s : State) : Host.Outcome State Fault Refusal :=
  match i with
  | .seqNext => Sys2Proof.Machine.execSeqNext s
  | .crcInit => Sys2Proof.Machine.execCrcInit s
  | .crcUpd => Sys2Proof.Machine.execCrcUpd s
  | .crcBuf => Sys2Proof.Machine.execCrcBuf s
  | .b64Enc => Sys2Proof.Machine.execB64Enc s
  | .b64Dec => Sys2Proof.Machine.execB64Dec s
  | .frmEnc => Sys2Proof.Machine.execFrmEnc s
  | .frmDec => Sys2Proof.Machine.execFrmDec s
  | .xcv => Sys2Proof.Machine.execXcv s
  | .markStart => Sys2Proof.Machine.execMarkStart s
  | .markCont => Sys2Proof.Machine.execMarkCont s
  | .term => Sys2Proof.Machine.execTerm s

end Sys2Proof.Machine
end

