-- ==== Sys2Proof/Machine/Turn.lean ====
section
/-! DEFINITION. Whose turn it is and what that agent does: the host's next bus operation, the block's next step inside
`XCV`, or an entry of the environment script (00_scope.md R6; log 9, log 13). -/

namespace Sys2Proof.Machine

/-- An illegal code (R96): `Fault(ERR_CMD, info = code)`, and nothing else changes. -/
def illegalCommand (code : Byte) (s : State) : State := raiseFault .cmd (code.setWidth 16) s

/-- The write of a code to `CMD` (30_encoding.md R94): nothing at all after a fault (R282); else the code is stored
(R241; log 14) and its command runs, or the code is illegal. -/
def issueCommand (code : Byte) (s : State) : Host.Outcome State Fault Refusal :=
  if s.errf then .next s
  else
    match decodeCommand code with
    | .ok i => exec i { s with cmd := code }
    | .error _ => .next (illegalCommand code { s with cmd := code })

/-- One bus operation of the host (R240 to R246), refused where R41 says. -/
def busOp (op : BusOp) (s : State) : Host.Outcome State Fault Refusal :=
  match busRefusal s.caps op with
  | some r => .refused r
  | none =>
    match op with
    | .wr n v => if n = Reg.CMD.number then issueCommand (BitVec.ofNat 8 v) s else .next (busWrite n v s)
    | .rd n => .next (busRead n s)
    | .wrb b off bytes => .next (busWriteBytes b off bytes s)
    | .rdb b off n => .next (busReadBytes b off n s)

/-- The end of the host's operation (R23): it is blocked while an exchange is in progress (R202); the program stops when
the operation faulted; else the index advances. -/
def operationDone (before after : State) : State :=
  if after.xstate.busy then after
  else if after.errf && !before.errf then { after with stopped := true }
  else { after with pc := after.pc + 1 }

/-- The host performs the operation at index `pc`; a program that has ended or stopped performs none (R23). -/
def hostTurn (s : State) : Host.Outcome State Fault Refusal :=
  if s.stopped then .next s
  else
    match s.program[s.pc]? with
    | none => .next s
    | some op =>
      match busOp op s with
      | .next t => .next (operationDone s t)
      | .fault r => .fault r
      | .refused r => .refused r

/-- A step inside `XCV` may end the exchange, and with it the host's operation (R94, R202). -/
def exchangeDone (before after : State) : State := if before.xstate.busy then operationDone before after else after

/-- Nothing comes from outside: the block takes its step of `XCV`, or else the host its next operation. -/
def machineTurn (s : State) : Host.Outcome State Fault Refusal :=
  if s.xstate.busy then .next (exchangeDone s (xcvStep s)) else hostTurn s

/-- The remote device sends bytes: those of a wire symbol run that instruction, any others arrive as they are. -/
def deviceTurn (bytes : List Byte) (s : State) : Host.Outcome State Fault Refusal :=
  match decodeWire bytes with
  | .ok i =>
    match exec i s with
    | .next t => .next (exchangeDone s t)
    | .fault r => .fault r
    | .refused r => .refused r
  | .error _ => .next (exchangeDone s (arriveBytes bytes s))

/-- An entry of the environment script takes effect. -/
def envTurn (e : EnvEvent) (s : State) : Host.Outcome State Fault Refusal :=
  match e with
  | .proceed => machineTurn s
  | .push bytes => deviceTurn bytes s
  | .await _ => .next s
  | .openFail => .next (exchangeDone s (failOpen s))
  | .writeFail _ => .next (exchangeDone s (failWrite s))
  | .readFail => .next (exchangeDone s (failRead s))
  | .timeout => .next (exchangeDone s (fireTimeout s))
  | .tick => .next (exchangeDone s (tickTimer s))
  | .reset seed rx => .next (resetBy seed rx s)

/-- One step of the whole: the first entry of the environment script takes effect and is used up if it is possible now
(R217, R218, R276); otherwise it stays and the machine takes its turn (log 9). -/
def takeTurn (s : State) : Host.Outcome State Fault Refusal :=
  match s.env with
  | [] => machineTurn s
  | e :: rest => if e.enabled s then envTurn e { s with env := rest } else machineTurn s

/-! ## Placing an instruction where the next step meets it -/

/-- The list with element `n` set, padded with `rd STATUS` when it is shorter. -/
def setAt (n : Nat) (op : BusOp) : List BusOp → List BusOp
  | [] => List.replicate n (.rd Reg.STATUS.number) ++ [op]
  | x :: xs =>
    match n with
    | 0 => op :: xs
    | n + 1 => x :: setAt n op xs

/-- The state in which the very next step is the host's write of this code to `CMD` (log 13). -/
def placeCommand (code : Nat) (s : State) : State :=
  { s with
    program := setAt s.pc (.wr Reg.CMD.number code) s.program
    stopped := false
    xstate := if s.xstate.busy then .idle else s.xstate
    env := .proceed :: s.env }

/-- The state in which the very next step is the remote device's sending of these bytes (log 11). -/
def placeOnWire (bytes : List Byte) (s : State) : State := { s with env := .push bytes :: s.env }

/-- The bytes of a table number, placed on their channel. -/
def placeBytes (bytes : List Byte) (s : State) : State :=
  match tableChannel bytes, bytes with
  | .command, [b] => placeCommand b.toNat s
  | _, _ => placeOnWire bytes s

end Sys2Proof.Machine
end

