-- ==== Sys2Proof/Machine/Step.lean ====
section
/-! DEFINITION. One step of the machine, and where the next instruction is put for it. -/

namespace Sys2Proof.Machine

/-- One step: one agent of 00_scope.md R6 moves. -/
def step (s : State) : Host.Outcome State Fault Refusal := takeTurn s

/-- The state `s` with the instruction of a table number stored where `step` meets its next instruction: a command as
the host's operation at `pc`, a wire symbol as what the remote device sends next (log 13, log 25). -/
def State.withFetchWord (s : State) (nbits w : Nat) : State :=
  match tableBytes nbits w with
  | none => s
  | some bytes => placeBytes bytes s

end Sys2Proof.Machine
end

