-- ==== Sys2Proof/Machine/Pseudo.lean ====
section
/-! DEFINITION. The pseudo-instructions of 30_encoding.md R99 and the bus operations of one exchange
(46_host_protocol.md R250): functions that give the host's bus operations. -/

namespace Sys2Proof.Machine

/-- `wr REG, v` by the register's name. -/
def wrReg (r : Reg) (v : Nat) : BusOp := .wr r.number v

/-- `rd REG` by the register's name. -/
def rdReg (r : Reg) : BusOp := .rd r.number

/-- `cmd M` is `wr CMD, code(M)` (R99, R245); a wire symbol has no command code and gives no operation. -/
def cmdOps (i : Instr) : List BusOp :=
  match channelOf i with
  | .command => (encode i).map fun code => wrReg .CMD code.toNat
  | .wire => []

/-- `ldhdr op, group, seq, id` (R99). -/
def ldhdr (op : Byte) (group : Half) (seq id : Byte) : List BusOp :=
  [wrReg .TXH_OP op.toNat, wrReg .TXH_GROUP group.toNat, wrReg .TXH_SEQ seq.toNat, wrReg .TXH_CMD id.toNat]

/-- `ldpay bytes` (R99). -/
def ldpay (bytes : List Byte) : List BusOp := [.wrb .PBUF 0 bytes, wrReg .PLEN bytes.length]

/-- `ldtext bytes` (R99). -/
def ldtext (bytes : List Byte) : List BusOp := [.wrb .TBUF 0 bytes, wrReg .TLEN bytes.length]

/-- `crc16 bytes` (R99): the result is in `CRC`. -/
def crc16Ops (bytes : List Byte) : List BusOp := ldpay bytes ++ cmdOps .crcInit ++ cmdOps .crcBuf

/-- `newseq` (R99), for the value `v` that the read of `RES` returns. -/
def newseq (v : Byte) : List BusOp := cmdOps .seqNext ++ [rdReg .RES, wrReg .TXH_SEQ v.toNat]

/-- `xchg` (R99). -/
def xchg : List BusOp := cmdOps .frmEnc ++ cmdOps .xcv

/-- The first half of one exchange (R250): load the request and encode it. -/
def requestOps (op : Byte) (group : Half) (seq id : Byte) (payload : List Byte) : List BusOp :=
  ldhdr op group seq id ++ ldpay payload ++ cmdOps .frmEnc ++ [rdReg .STATUS]

/-- The operations before a request that wants a new sequence id (R250, R252); the value read from `RES` is the `seq` of
the request's `ldhdr`. -/
def newIdOps : List BusOp := cmdOps .seqNext ++ [rdReg .RES]

/-- The reads of a response (R250), for the value `rplen` that the read of `RPLEN` returns: the header fields the host
checks, then the payload, `rdb RBUF, 10, RPLEN`. -/
def responseOps (rplen : Half) : List BusOp :=
  [rdReg .RXH_SEQ, rdReg .RXH_OP, rdReg .RXH_GROUP, rdReg .RPLEN, .rdb .RBUF 10 rplen.toNat]

/-- The second half of one exchange (R250): transmit, receive, and read the response. -/
def exchangeOps (rplen : Half) : List BusOp := cmdOps .xcv ++ responseOps rplen

/-- One whole request / response exchange (R250); `newId` says whether a new sequence id is wanted, and then `seq` is the
value read from `RES`. -/
def requestResponseOps (newId : Bool) (op : Byte) (group : Half) (seq id : Byte) (payload : List Byte) (rplen : Half) :
    List BusOp :=
  (if newId then newIdOps else []) ++ requestOps op group seq id payload ++ exchangeOps rplen

/-- The configuration writes before the first request (R250, 70_reset_and_hazards.md R303). -/
def configOps (linelen mtu timeout : Nat) : List BusOp :=
  [wrReg .LINELEN linelen, wrReg .MTU mtu, wrReg .TIMEOUT timeout]

end Sys2Proof.Machine
end

