-- ==== Sys2Proof/Machine/Upload.lean ====
section
/-! DEFINITION. The decisions of the host's protocol (46_host_protocol.md part B), as pure functions of the host's
session and of what the block's registers show. This is documented behaviour of the host agent, outside the block
(00_scope.md R5); no step of the machine uses it (log 22). -/

namespace Sys2Proof.Machine

/-- `SHRINK_MARGIN`, "OPEN, at least 1" (R7, R255). -/
def shrinkMargin : Nat := Config.shrinkMarginLessOne + 1

/-- Host-level failures (R263). -/
inductive HostFailure where
  /-- The response's sequence id is not the request's (R256). -/
  | seqMismatch
  /-- The response's operation or group is not the expected pair (R256). -/
  | rspMismatch
  /-- The device returned a non-zero status code (R257). -/
  | deviceError (code : Nat)
  /-- The link MTU is too small to transfer any data (R254, R255). -/
  | mtuTooSmall
  /-- The device did not advance the offset (R258, R261). -/
  | noProgress
  /-- The payload is no key/value record, `ERR_PAYLOAD` (R192, R257). -/
  | payload
  deriving DecidableEq, Repr

/-- The Upload Session (R251). -/
structure Session where
  /-- The source image bytes. -/
  image : List Byte
  /-- The current send offset. -/
  offset : Nat
  /-- The current attempted chunk length. -/
  attempted : Nat
  /-- The current sequence id. -/
  seq : Byte
  /-- A chunk with `length` and `data-hash` has been sent in this transfer: "never resent" (R260). -/
  announced : Bool
  deriving DecidableEq, Repr

/-- What the host does next: the states `sending`, `shrinking`, `advancing`, `resyncing`, `done`, `failed` (R252). -/
inductive HostNext where
  /-- Exchange the encoded frame. -/
  | sending (u : Session)
  /-- Build the payload again at the same offset, with the same sequence id. -/
  | shrinking (u : Session)
  /-- The next chunk follows the one just sent. -/
  | advancing (u : Session)
  /-- The next chunk starts where the device says. -/
  | resyncing (u : Session)
  /-- The upload succeeded. -/
  | done
  /-- The upload failed. -/
  | failed (f : HostFailure)
  deriving DecidableEq, Repr

/-- Outer loop (R252): a new sequence id for this chunk, and the attempted length at the configured maximum. -/
def beginChunk (id : Byte) (u : Session) : Session := { u with seq := id, attempted := Config.chunkMax }

/-- The chunk: `min(attempted length, image length - offset)` bytes from the offset (R253). -/
def chunkBytes (u : Session) : List Byte := (u.image.drop u.offset).take u.attempted

/-- The next chunk carries `length` and `data-hash`: "exactly one chunk per transfer carries `length`/`data-hash`, and it
must be the chunk at offset 0" (R260). A transfer that comes back to offset 0 does not send them again: DESIGN CHOICE, log 27. -/
def Session.announces (u : Session) : Bool := decide (u.offset = 0) && !u.announced

/-- `offset` and `length` are unsigned 32-bit fields (R260): a transfer they cannot hold has no payload: DESIGN CHOICE,
log 27. -/
def Session.fieldsFit (u : Session) : Bool := decide (u.offset < 2 ^ 32) && decide (u.image.length < 2 ^ 32)

/-- Inner loop step 1 (R253, R260). -/
def uploadPayload (slot : Int) (u : Session) : Option UploadPayload :=
  if u.fieldsFit then
    some
      { slot := slot
        offset := BitVec.ofNat 32 u.offset
        data := chunkBytes u
        first :=
          if u.announces then some (BitVec.ofNat 32 u.image.length, Config.imageDigest u.image) else none }
  else none

/-- The request of a chunk (R250, R260). -/
def uploadOps (slot : Int) (u : Session) : Option (List BusOp) :=
  (uploadPayload slot u).map fun p =>
    requestOps Config.opWrite Config.groupImage u.seq Config.cmdUpload (Config.payloadEncode p)

/-- The raw bytes to give up for an overflow of `e` wire bytes (R150, R255). -/
def shrinkBy (e : Nat) : Nat := e / 4 * 3 + shrinkMargin

/-- Inner loop step 2 (R254, R255): after `FRM.ENC`, by `STATUS.MTUOVF`, `WLEN` and `MTU`. A shrink to a length below 1
is `MTU_TOO_SMALL` too (92 D26). A frame that is sent counts as the transfer's announcement if it carries one (R260). -/
def afterEncode (u : Session) (s : State) : HostNext :=
  if s.mtuovf then
    let overflow := s.wlen.toNat - s.mtu.toNat
    if u.attempted < overflow then .failed .mtuTooSmall
    else if u.attempted < shrinkBy overflow + 1 then .failed .mtuTooSmall
    else .shrinking { u with attempted := u.attempted - shrinkBy overflow }
  else .sending { u with announced := u.announced || u.announces }

/-- What the host has read of a response (R250). -/
structure Reading where
  /-- `RXH_SEQ`. -/
  seq : Nat
  /-- `RXH_OP`. -/
  op : Nat
  /-- `RXH_GROUP`. -/
  group : Nat
  /-- The payload, `RPLEN` bytes of `RBUF` from offset 10. -/
  body : List Byte
  deriving DecidableEq, Repr

/-- The values that `responseOps` returned, in its order. -/
def readingOf : List BusValue → Option Reading
  | [.reg seq, .reg op, .reg group, .reg _, .bytes body] => some { seq := seq, op := op, group := group, body := body }
  | _ => none

/-- Inner loop step 3 (R256): correlation with the request's sequence id and the expected operation and group. The
command-id is not compared. -/
def correlate (expectedOp seq : Byte) (r : Reading) : Option HostFailure :=
  if r.seq ≠ seq.toNat then some .seqMismatch
  else if r.op ≠ expectedOp.toNat ∨ r.group ≠ Config.groupImage.toNat then some .rspMismatch
  else none

/-- A response correlated (R256, R262) and its payload decoded (R192, R257): `ERR_PAYLOAD` when it is malformed. -/
def decodeReading (expectedOp seq : Byte) (r : Reading) : Except HostFailure Config.Payload :=
  match correlate expectedOp seq r with
  | some f => .error f
  | none =>
    match Config.payloadDecode r.body with
    | none => .error .payload
    | some p => .ok p

/-- Inner loop steps 4 and 5 (R257 to R259, R261): the device's offset overrides the host's own; an absent offset is no
progress. Two choices of the model (DESIGN CHOICE, log 26): an offset that is both the chunk's own and the image length is
no progress (R258 before R259), and an offset beyond the image length is followed as any other (R259, 93 I24). -/
def afterResponse (u : Session) (r : Response) : HostNext :=
  if r.status ≠ 0 then .failed (.deviceError r.status)
  else
    let new := r.offset.getD u.offset
    if new = u.offset then .failed .noProgress
    else if new = u.image.length then .done
    else if new = u.offset + (chunkBytes u).length then .advancing { u with offset := new }
    else .resyncing { u with offset := new }

/-- Steps 3 to 5 on what the host has read after a successful `XCV`. -/
def afterExchange (u : Session) (r : Reading) : HostNext :=
  match decodeReading Config.opWriteRsp u.seq r with
  | .error f => .failed f
  | .ok p => afterResponse u (Config.responseFields p)

/-- The whole exchange of the Query Command (R262), with a new sequence id (log 22); the MTU is not checked. -/
def queryOps (seq : Byte) (rplen : Half) : List BusOp :=
  requestResponseOps true Config.opRead Config.groupImage seq Config.cmdState Config.emptyPayload rplen

/-- The result of the Query Command (R262): it "verifies response sequence id and operation/group match, then surfaces
the decoded payload"; a malformed one is `ERR_PAYLOAD` (R192). "No chunking, no retry". Its display is out (R5). -/
def queryResult (seq : Byte) (r : Reading) : Except HostFailure Config.Payload :=
  decodeReading Config.opReadRsp seq r

end Sys2Proof.Machine
end

