-- ==== Sys2Proof/Safety.lean ====
section
/-! DEFINITION. What counts as a safe state and a successful run, in the terms the claims use. -/

namespace Sys2Proof.Machine

/-- No fault has been taken: "every claim about a program's result takes `ERRF = 0` at the end as part of success"
(60_exceptions.md R282). -/
def State.live (s : State) : Prop := s.errf = false

/-- `n` steps lead from `s` to `t`. -/
def runsTo (n : Nat) (s t : State) : Prop := Host.Core.run Sys2Proof.core n s = .next t

/-- The host performs the bus operation `op` at the next step: no exchange is in progress, the program has not stopped,
and nothing comes from outside first. -/
def State.performs (s : State) (op : BusOp) : Prop :=
  s.xstate.busy = false ∧ s.stopped = false ∧ s.env = [] ∧ s.program[s.pc]? = some op

/-- What holds of the machine in every state a run can reach. -/
structure State.Inv (s : State) : Prop where
  /-- The buffers keep their canonical form (R32). -/
  pbuf_wf : s.pbuf.wf
  tbuf_wf : s.tbuf.wf
  wbuf_wf : s.wbuf.wf
  rbuf_wf : s.rbuf.wf
  /-- `STATUS` bits 7:2 are zero (R22). -/
  status_reserved : s.status &&& 0xFC = 0
  /-- `ERRF` is set exactly in state `FAULT` (R33, R280). -/
  fault_state : s.errf = true ↔ s.xstate = .fault
  /-- `ERRF` is set exactly when `ERR` is not zero (R22, R31). -/
  fault_code : s.errf = true ↔ s.err ≠ 0
  /-- `ERR` is one of the codes the block raises: never 14 to 255, never `ERR_PAYLOAD` (R271). -/
  err_range : s.err.toNat ≤ 13 ∧ s.err.toNat ≠ 10
  /-- `ERRINFO` is zero when `ERR` is (R31). -/
  errinfo_zero : s.err = 0 → s.errinfo = 0
  /-- The serial device is open exactly from the open to the end of the line (R35, R203, R209, R280). -/
  port : s.portOpen = s.xstate.portIsOpen
  /-- The write index stays within the frame (R205). -/
  write_index : s.xstate = .write → s.widx.toNat ≤ s.wlen.toNat
  /-- The host program stops only at a fault (R23). -/
  stopped_fault : s.stopped = true → s.errf = true
  /-- The length registers stay within the buffers' capacities (R28, R41); after a fault those of an output are
  unspecified (R40). -/
  plen_fits : fits s.plen.toNat s.caps.pbufMax = true
  tlen_fits : s.errf = false → fits s.tlen.toNat s.caps.tbuf = true
  wlen_fits : s.errf = false → fits s.wlen.toNat s.caps.wbuf = true
  rlen_fits : s.errf = false → fits s.rlen.toNat s.caps.rbuf = true
  /-- Every draw that labels a buffer has been made (log 3). -/
  draws_made : s.pbuf.gen < s.draws ∧ s.tbuf.gen < s.draws ∧ s.wbuf.gen < s.draws ∧ s.rbuf.gen < s.draws

/-- `k` commands `i` in a row, each from the state the one before it left. -/
def execRepeat (i : Instr) : Nat → State → Host.Outcome State Fault Refusal
  | 0, s => .next s
  | k + 1, s =>
    match exec i s with
    | .next t => execRepeat i k t
    | .fault r => .fault r
    | .refused r => .refused r

/-- The frame text that wire bytes carry: every marker and every `0x0A` removed (44_frame_decode.md R189). None of the
five marker and terminator bytes is the code of a text character (30_encoding.md R89). -/
def stripWire (wire : List Byte) : List Byte :=
  wire.filter fun b => decide (b ∉ startMarker ++ contMarker ++ [terminator])

/-- The number of padding characters a text ends in. -/
def trailingPads (t : List Byte) : Nat := (t.reverse.takeWhile fun c => decide (c = padChar)).length

/-! ## What a fault leaves

`s` is the state the fault is raised in and `t` the state after it: the fault entry of 60_exceptions.md R280, the
outputs of the faulting command open (10_state.md R40), and everything else of `t` as in `s`. -/

/-- A fault whose only other effect is on `TBUF`, `TLEN`: `B64.ENC` (R147). -/
def RaisedB64Enc (c : FaultCode) (info : Half) (s t : State) : Prop :=
  t = { s with
    err := c.code, errinfo := info, status := raiseErrf s.status, portOpen := false, xstate := .fault
    tbuf := t.tbuf, tlen := t.tlen, draws := t.draws }

/-- A fault whose only other effect is on `RBUF`, `RLEN`: `B64.DEC` (R148). -/
def RaisedB64Dec (c : FaultCode) (info : Half) (s t : State) : Prop :=
  t = { s with
    err := c.code, errinfo := info, status := raiseErrf s.status, portOpen := false, xstate := .fault
    rbuf := t.rbuf, rlen := t.rlen, draws := t.draws }

/-- A fault of `FRM.ENC`; `MTUOVF` is one of its outputs (R166). -/
def RaisedFrmEnc (c : FaultCode) (info : Half) (s t : State) : Prop :=
  t = { s with
    err := c.code, errinfo := info, status := raiseErrf (putMtuovf s.status t.mtuovf), portOpen := false
    xstate := .fault, txhLen := t.txhLen, crc := t.crc, wbuf := t.wbuf, wlen := t.wlen, draws := t.draws }

/-- A fault of `FRM.DEC` (R187). -/
def RaisedFrmDec (c : FaultCode) (info : Half) (s t : State) : Prop :=
  t = { s with
    err := c.code, errinfo := info, status := raiseErrf s.status, portOpen := false, xstate := .fault
    rbuf := t.rbuf, rlen := t.rlen, crc := t.crc, rxhOp := t.rxhOp, rxhFlags := t.rxhFlags, rxhLen := t.rxhLen
    rxhGroup := t.rxhGroup, rxhSeq := t.rxhSeq, rxhCmd := t.rxhCmd, rplen := t.rplen, draws := t.draws }

/-- A fault of `XCV` (R212): `TXOUT` and `RXFIFO` are exact. -/
def RaisedXcv (c : FaultCode) (info : Half) (s t : State) : Prop :=
  t = { s with
    err := c.code, errinfo := info, status := raiseErrf s.status, portOpen := false, xstate := .fault
    tbuf := t.tbuf, tlen := t.tlen
    rbuf := t.rbuf, rlen := t.rlen, crc := t.crc, rxhOp := t.rxhOp, rxhFlags := t.rxhFlags, rxhLen := t.rxhLen
    rxhGroup := t.rxhGroup, rxhSeq := t.rxhSeq, rxhCmd := t.rxhCmd, rplen := t.rplen, draws := t.draws }

/-- The outputs of a successful `FRM.DEC` or `XCV` (R187): the raw frame in `RBUF`, the registers of the frame `f`, and
everything else of `t` as in `s`; bytes of `RBUF` at and beyond the new `RLEN` are as they were (DESIGN CHOICE, log 28). -/
def DeliveredFrame (f : ParsedFrame) (s t : State) : Prop :=
  t.rbuf.read 0 f.raw.length = f.raw ∧ (∀ a, f.raw.length ≤ a → t.rbuf.byte a = s.rbuf.byte a) ∧
  t = { s with
    rbuf := t.rbuf, rlen := BitVec.ofNat 32 f.raw.length, crc := f.sum
    rxhOp := f.header.op, rxhFlags := f.header.flags, rxhLen := f.header.length, rxhGroup := f.header.group
    rxhSeq := f.header.sequence, rxhCmd := f.header.commandId, rplen := BitVec.ofNat 16 (f.raw.length - 12) }

/-- The timer after a step that leaves the machine in a receiving state: loaded when the queue is empty (R34, R218). -/
def timerAfter (queue : List Byte) (s : State) : Word := if queue.isEmpty then s.timeout else s.tmr

/-- Everything the host writes and the request it has encoded: `SEQ`, `RES`, the configuration registers, `TXH_*`,
`PBUF`, `PLEN`, `WBUF`, `WLEN`, `DATA` (R211, R280). -/
def SameRequest (s t : State) : Prop :=
  t.seq = s.seq ∧ t.res = s.res ∧ t.data = s.data ∧ t.linelen = s.linelen ∧ t.mtu = s.mtu ∧ t.timeout = s.timeout ∧
  t.plen = s.plen ∧ t.pbuf = s.pbuf ∧ t.wbuf = s.wbuf ∧ t.wlen = s.wlen ∧ t.txhOp = s.txhOp ∧ t.txhLen = s.txhLen ∧
  t.txhGroup = s.txhGroup ∧ t.txhSeq = s.txhSeq ∧ t.txhCmd = s.txhCmd

end Sys2Proof.Machine
end

