-- ==== Sys2Proof/WellFormed.lean ====
section
/-! DEFINITION. Well-formedness. An instruction has no register-number field and no immediate (30_encoding.md R93), so
every term of `Instr` is well formed. A bus operation of a host program is well formed when 10_state.md R41 does not
refuse it. -/

namespace Sys2Proof

/-- Every instruction is well formed: no encoding has an operand field (R93). -/
def Instr.wellFormed : Instr → Bool
  | .seqNext => true
  | .crcInit => true
  | .crcUpd => true
  | .crcBuf => true
  | .b64Enc => true
  | .b64Dec => true
  | .frmEnc => true
  | .frmDec => true
  | .xcv => true
  | .markStart => true
  | .markCont => true
  | .term => true

/-- The check on one bus operation (R41). -/
def Machine.BusOp.wellFormed (caps : Capacities) (op : Machine.BusOp) : Bool := (Machine.busRefusal caps op).isNone

/-- The check on a host program (R41). -/
def programWellFormed (caps : Capacities) (program : List Machine.BusOp) : Bool :=
  program.all (Machine.BusOp.wellFormed caps)

end Sys2Proof
end

