-- ==== Sys2Proof/Certificates/Slice0/Obligations.lean ====
section
/-! DEFINITION. The statements for the provers. Each says which rule of the spec it formalises; where a clause rests on
a convention of the model, the docstring names the log entry. -/

open Sys2Proof Sys2Proof.Machine

/-! ## Encoding -/

/-- Written-out words of R95 and R89 decode to the instruction they stand for, and codes beside them to none. -/
def Obligations.WordsDecodeAsTheTableSays : Prop :=
  decodeTableWord 8 0x10 = some .seqNext ∧ decodeTableWord 8 0x22 = some .crcBuf ∧
  decodeTableWord 8 0x31 = some .b64Dec ∧ decodeTableWord 8 0x40 = some .frmEnc ∧
  decodeTableWord 8 0x50 = some .xcv ∧ decodeTableWord 16 0x0609 = some .markStart ∧
  decodeTableWord 16 0x0414 = some .markCont ∧ decodeTableWord 8 0x0A = some .term ∧
  decodeTableWord 8 0x11 = none ∧ decodeTableWord 8 0x51 = none ∧ decodeTableWord 16 0x0906 = none

/-- Decode and encode agree, both ways, on each channel (R93, R95, R89): every instruction is read back from its bytes,
and bytes that decode are the bytes of what they decode to. -/
def Obligations.DecodeAndEncodeAgree : Prop :=
  (∀ i : Instr, i.wellFormed = true → decode (channelOf i) (encode i) = .ok i) ∧
  (∀ (c : Channel) (bytes : List Byte) (i : Instr), decode c bytes = .ok i → channelOf i = c ∧ encode i = bytes)

/-- The step that meets a command code at the host's index runs that command, on the state with the code stored in `CMD`
(log 14), and then moves the host on (`operationDone`: blocked, stopped or `pc + 1`); after a fault the same write does
nothing but let the host go on (R94, R282). -/
def Obligations.StepRunsTheDecodedCommand : Prop :=
  ∀ (s : State) (code : Byte) (i : Instr), s.performs (.wr 0 code.toNat) → decodeCommand code = .ok i →
    (s.errf = false →
      ∃ t, exec i { s with cmd := code } = .next t ∧ step s = .next (operationDone { s with cmd := code } t)) ∧
    (s.errf = true → step s = .next { s with pc := s.pc + 1 })

/-- The step that meets a wire symbol in what the remote device sends runs that instruction (log 9, log 11). -/
def Obligations.StepRunsTheDecodedSymbol : Prop :=
  ∀ (s : State) (bytes : List Byte) (rest : List EnvEvent) (i : Instr), s.env = .push bytes :: rest →
    decodeWire bytes = .ok i →
    ∃ t, exec i { s with env := rest } = .next t ∧ step s = .next (exchangeDone { s with env := rest } t)

/-! ## Sequence numbers -/

/-- R121, whole. -/
def Obligations.SeqNextReturnsTheOldValueAndAdvances : Prop :=
  decodeCommand 0x10 = .ok .seqNext ∧
  (∀ s : State, s.errf = false → exec .seqNext s = .next { s with res := s.seq, seq := s.seq + 1 }) ∧
  (∀ s : State, s.errf = true → exec .seqNext s = .next s)

/-- R122: the `k`-th `SEQ.NEXT` returns `SEED + k - 1` and leaves `SEED + k`; any 256 consecutive results are pairwise
distinct and result `k + 256` equals result `k`. -/
def Obligations.SequenceIdsCycleThroughAll256 : Prop :=
  ∀ s : State, s.errf = false →
    (∀ k, 1 ≤ k → ∃ t, execRepeat .seqNext k s = .next t ∧
      t.res.toNat = (s.seq.toNat + k - 1) % 256 ∧ t.seq.toNat = (s.seq.toNat + k) % 256) ∧
    (∀ j k t u, 1 ≤ j → j < k → execRepeat .seqNext j s = .next t → execRepeat .seqNext k s = .next u →
      (k < j + 256 → t.res ≠ u.res) ∧ (k = j + 256 → t.res = u.res))

/-! ## Checksum -/

/-- R134, whole. -/
def Obligations.CrcInitClearsTheAccumulator : Prop :=
  decodeCommand 0x20 = .ok .crcInit ∧
  (∀ s : State, s.errf = false → exec .crcInit s = .next { s with crc := 0x0000 }) ∧
  (∀ s : State, s.errf = true → exec .crcInit s = .next s)

/-- R135, whole, with the check value of R130. -/
def Obligations.CrcUpdFeedsOneByte : Prop :=
  decodeCommand 0x21 = .ok .crcUpd ∧
  (∀ s : State, s.errf = false → exec .crcUpd s = .next { s with crc := crcStep s.crc s.data }) ∧
  (∀ s : State, s.errf = true → exec .crcUpd s = .next s) ∧
  crcStep 0x0000 0x31 = 0x2672 ∧ crcStep 0x0000 0x01 = 0x1021 ∧ crcStep 0x0000 0x00 = 0x0000 ∧
  crc16 [0x31, 0x32, 0x33, 0x34, 0x35, 0x36, 0x37, 0x38, 0x39] = 0x31C3

/-- R136: the first `PLEN` bytes of `PBUF` are folded into `CRC`; two `CRC.BUF` in a row, with `PBUF` reloaded between
them, checksum the concatenation. -/
def Obligations.CrcBufFoldsTheBuffer : Prop :=
  decodeCommand 0x22 = .ok .crcBuf ∧
  (∀ s : State, s.errf = false →
    exec .crcBuf s = .next { s with crc := crcFrom s.crc (s.pbuf.read 0 s.plen.toNat) }) ∧
  (∀ s : State, s.errf = true → exec .crcBuf s = .next s) ∧
  (∀ (s : State) (m : Memory) (n : Half), s.errf = false →
    ∃ t u, exec .crcBuf s = .next t ∧ exec .crcBuf { t with pbuf := m, plen := n } = .next u ∧
      u.crc = crcFrom s.crc (s.pbuf.read 0 s.plen.toNat ++ m.read 0 n.toNat))

/-- R132: the checksum is a fold of `crc_step` from zero, zero for no bytes, so that a concatenation is checksummed piece
by piece. -/
def Obligations.CrcOfAConcatenation : Prop :=
  (∀ (c : Half) (s : List Byte), crcFrom c s = s.foldl crcStep c) ∧
  (∀ s : List Byte, crc16 s = crcFrom 0x0000 s) ∧ crc16 [] = 0x0000 ∧
  (∀ (c : Half) (s t : List Byte), crcFrom c (s ++ t) = crcFrom (crcFrom c s) t)

/-- R133: a sequence followed by its own checksum, most significant byte first, has checksum zero, and no other two bytes
do that: comparing and testing the residue accept the same frames. -/
def Obligations.CrcResidueIsZero : Prop :=
  (∀ s : List Byte, crc16 (s ++ [(crc16 s).extractLsb' 8 8, (crc16 s).extractLsb' 0 8]) = 0x0000) ∧
  (∀ (s : List Byte) (stored : Half), crc16 (s ++ be16 stored) = 0x0000 ↔ crc16 s = stored)

/-- R138: two byte sequences of one length that differ in exactly one bit have different checksums. -/
def Obligations.CrcDetectsEverySingleBitError : Prop :=
  ∀ (s : List Byte) (i k : Nat) (h : i < s.length), k < 8 → crc16 (s.set i (s[i] ^^^ (1 <<< k))) ≠ crc16 s

/-! ## base64 -/

/-- R140 to R144 (log 16): the alphabet, code by code; the value of a character; the text of one, two and three bytes,
bit by bit, and of more bytes group by group; then R143, whole: the length, and where the padding stands. -/
def Obligations.EncodedTextLengthAndPadding : Prop :=
  (List.range 64).map (fun v => b64Char (BitVec.ofNat 6 v)) =
    [0x41, 0x42, 0x43, 0x44, 0x45, 0x46, 0x47, 0x48, 0x49, 0x4A, 0x4B, 0x4C, 0x4D, 0x4E, 0x4F, 0x50,
      0x51, 0x52, 0x53, 0x54, 0x55, 0x56, 0x57, 0x58, 0x59, 0x5A, 0x61, 0x62, 0x63, 0x64, 0x65, 0x66,
      0x67, 0x68, 0x69, 0x6A, 0x6B, 0x6C, 0x6D, 0x6E, 0x6F, 0x70, 0x71, 0x72, 0x73, 0x74, 0x75, 0x76,
      0x77, 0x78, 0x79, 0x7A, 0x30, 0x31, 0x32, 0x33, 0x34, 0x35, 0x36, 0x37, 0x38, 0x39, 0x2B, 0x2F] ∧
  (∀ (c : Byte) (v : BitVec 6), b64Value c = some v ↔ b64Char v = c) ∧
  b64enc [] = [] ∧
  (∀ (b0 : Byte) (v : Nat), v = b0.toNat * 65536 →
    b64enc [b0] = [b64Char (BitVec.ofNat 6 (v / 2 ^ 18)), b64Char (BitVec.ofNat 6 (v / 2 ^ 12 % 64)), 0x3D, 0x3D]) ∧
  (∀ (b0 b1 : Byte) (v : Nat), v = b0.toNat * 65536 + b1.toNat * 256 →
    b64enc [b0, b1] =
      [b64Char (BitVec.ofNat 6 (v / 2 ^ 18)), b64Char (BitVec.ofNat 6 (v / 2 ^ 12 % 64)),
        b64Char (BitVec.ofNat 6 (v / 2 ^ 6 % 64)), 0x3D]) ∧
  (∀ (b0 b1 b2 : Byte) (rest : List Byte) (v : Nat), v = b0.toNat * 65536 + b1.toNat * 256 + b2.toNat →
    b64enc (b0 :: b1 :: b2 :: rest) =
      [b64Char (BitVec.ofNat 6 (v / 2 ^ 18)), b64Char (BitVec.ofNat 6 (v / 2 ^ 12 % 64)),
        b64Char (BitVec.ofNat 6 (v / 2 ^ 6 % 64)), b64Char (BitVec.ofNat 6 (v % 64))] ++ b64enc rest) ∧
  ∀ s : List Byte,
    (b64enc s).length = 4 * ((s.length + 2) / 3) ∧
    ∃ body, b64enc s = body ++ List.replicate ((3 - s.length % 3) % 3) padChar ∧ padChar ∉ body

/-- R146, whole: decoding inverts encoding, encoding inverts decoding on the texts accepted, and the decoded length. -/
def Obligations.Base64RoundTrips : Prop :=
  (∀ s : List Byte, b64dec (b64enc s) = some s) ∧
  (∀ t s : List Byte, b64dec t = some s → b64enc s = t) ∧
  b64dec [] = some [] ∧
  (∀ t s : List Byte, b64dec t = some s → trailingPads t ≤ 2 ∧ s.length + trailingPads t = 3 * t.length / 4)

/-- R147: the text goes to `TBUF`, its length to `TLEN`; a result larger than a bounded `TBUF` faults `ERR_CFG` 3. -/
def Obligations.B64EncWritesTheText : Prop :=
  decodeCommand 0x30 = .ok .b64Enc ∧
  (∀ s : State, s.errf = true → exec .b64Enc s = .next s) ∧
  ∀ (s : State) (text : List Byte), s.errf = false → text = b64enc (s.pbuf.read 0 s.plen.toNat) →
    ∃ t, exec .b64Enc s = .next t ∧
      (if fits text.length s.caps.tbuf then
        t.tbuf.read 0 text.length = text ∧ t.tlen.toNat = text.length ∧
        t = { s with tbuf := t.tbuf, tlen := t.tlen, draws := t.draws }
      else RaisedB64Enc .cfg 3 s t)

/-- R148: the decoded bytes go to `RBUF`, their number to `RLEN`; a malformed text faults `ERR_B64`, a result larger than
a bounded `RBUF` `ERR_CFG` 3. That the bytes of `RBUF` at and beyond the new `RLEN` keep their values is the model's
choice (log 28: 93 I6 leaves them open). -/
def Obligations.B64DecWritesTheBytes : Prop :=
  decodeCommand 0x31 = .ok .b64Dec ∧
  (∀ s : State, s.errf = true → exec .b64Dec s = .next s) ∧
  ∀ s : State, s.errf = false →
    ∃ t, exec .b64Dec s = .next t ∧
      match b64dec (s.tbuf.read 0 s.tlen.toNat) with
      | none => RaisedB64Dec .b64 0 s t
      | some r =>
        if fits r.length s.caps.rbuf then
          t.rbuf.read 0 r.length = r ∧ t.rlen.toNat = r.length ∧
          (∀ a, r.length ≤ a → t.rbuf.byte a = s.rbuf.byte a) ∧ t = { s with rbuf := t.rbuf, rlen := t.rlen }
        else RaisedB64Dec .cfg 3 s t

/-! ## Frames -/

/-- R160 to R162: the bytes of a raw frame, written out. -/
def Obligations.RawFrameLayout : Prop :=
  ∀ (op : Byte) (group : Half) (seq id : Byte) (d : List Byte), d.length ≤ 65525 →
    ∃ n p c : Half, n.toNat = d.length + 10 ∧ p.toNat = d.length ∧
      c = crc16 ([op, 0x00, hi8 p, lo8 p, hi8 group, lo8 group, seq, id] ++ d) ∧
      frameBytes op group seq id d =
        [hi8 n, lo8 n] ++ ([op, 0x00, hi8 p, lo8 p, hi8 group, lo8 group, seq, id] ++ d ++ [hi8 c, lo8 c]) ∧
      (frameBytes op group seq id d).length = d.length + 12

/-- R165: the length of the wire bytes. -/
def Obligations.WireLengthFormula : Prop :=
  ∀ (op : Byte) (group : Half) (seq id : Byte) (d : List Byte) (linelen : Nat), d.length ≤ 65525 → 5 ≤ linelen →
    (lineSplit (b64enc (frameBytes op group seq id d)) (linelen - 4)).length =
      4 * ((d.length + 12 + 2) / 3) +
        3 * ((4 * ((d.length + 12 + 2) / 3) + (linelen - 4 - 1)) / (linelen - 4))

/-- R169: the column-counter splitter gives the lines of R164. -/
def Obligations.StreamingSplitterEqualsLineSplit : Prop :=
  ∀ (t : List Byte) (w : Nat), 1 ≤ w → streamLines w 0 startMarker t = lineSplit t w

/-- R171 (a), (b), (d) for a text of base64 characters: markers and terminators removed give the text back; the wire
bytes begin with the start marker and end with the terminator; and every line, from one terminator to the next, has at
most `w + 3` bytes, its terminator included. -/
def Obligations.LinesCarryTheText : Prop :=
  ∀ (t : List Byte) (w : Nat), 1 ≤ w → t ≠ [] → (∀ c ∈ t, (b64Value c).isSome = true ∨ c = padChar) →
    stripWire (lineSplit t w) = t ∧ (lineSplit t w).take 2 = [0x06, 0x09] ∧
    (lineSplit t w).getLast? = some 0x0A ∧
    ∀ line ∈ (lineSplit t w).splitOn 0x0A, line.length + 1 ≤ w + 3

/-- R166 to R168 with the order of R277: `LINELEN`, then `PLEN`, then capacity; on success the wire bytes are in `WBUF`,
`MTUOVF` says whether they are more than `MTU`, and nothing else changes. That the bytes of `WBUF` at and beyond the new
`WLEN` keep their values is the model's choice (log 28: 93 I6 leaves them open). -/
def Obligations.FrmEncAssemblesTheFrame : Prop :=
  decodeCommand 0x40 = .ok .frmEnc ∧
  (∀ s : State, s.errf = true → exec .frmEnc s = .next s) ∧
  ∀ (s : State) (d wire : List Byte), s.errf = false → d = s.pbuf.read 0 s.plen.toNat →
    wire = lineSplit (b64enc (frameBytes s.txhOp s.txhGroup s.txhSeq s.txhCmd d)) (s.linelen.toNat - 4) →
    ∃ t, exec .frmEnc s = .next t ∧
      (if s.linelen.toNat < 5 then RaisedFrmEnc .cfg 1 s t
      else if 65525 < s.plen.toNat then RaisedFrmEnc .cfg 2 s t
      else if fits wire.length s.caps.wbuf = false then RaisedFrmEnc .cfg 3 s t
      else
        t.wbuf.read 0 wire.length = wire ∧ t.wlen.toNat = wire.length ∧
        (∀ a, wire.length ≤ a → t.wbuf.byte a = s.wbuf.byte a) ∧
        t.mtuovf = decide (s.mtu.toNat < wire.length) ∧
        t = { s with
          txhLen := s.plen
          crc := crc16 (headerBytes (encodeHeader s.txhOp s.txhGroup s.txhSeq s.txhCmd d) ++ d)
          wbuf := t.wbuf, wlen := t.wlen, status := putMtuovf s.status t.mtuovf })

/-- R180 to R186: the checks of `frame_parse` and their order, each with its code and detail, and what a frame that
passes them all gives. -/
def Obligations.FrameParseChecksInOrder : Prop :=
  ∀ text : List Byte,
    match b64dec text with
    | none => frameParse text = .error (.b64, 0)
    | some raw =>
      (raw.length < 12 → frameParse text = .error (.short, BitVec.ofNat 16 raw.length)) ∧
      (12 ≤ raw.length → (unbe16 (byteAt raw 0) (byteAt raw 1)).toNat ≠ raw.length - 2 →
        frameParse text = .error (.len, unbe16 (byteAt raw 0) (byteAt raw 1))) ∧
      (12 ≤ raw.length → (unbe16 (byteAt raw 0) (byteAt raw 1)).toNat = raw.length - 2 →
        crc16 ((raw.drop 2).take (raw.length - 4)) ≠
          unbe16 (byteAt raw (raw.length - 2)) (byteAt raw (raw.length - 1)) →
        frameParse text = .error (.crc, crc16 ((raw.drop 2).take (raw.length - 4)))) ∧
      (12 ≤ raw.length → (unbe16 (byteAt raw 0) (byteAt raw 1)).toNat = raw.length - 2 →
        crc16 ((raw.drop 2).take (raw.length - 4)) =
          unbe16 (byteAt raw (raw.length - 2)) (byteAt raw (raw.length - 1)) →
        frameParse text = .ok
          { header :=
              { op := byteAt raw 2, flags := byteAt raw 3, length := unbe16 (byteAt raw 4) (byteAt raw 5)
                group := unbe16 (byteAt raw 6) (byteAt raw 7), sequence := byteAt raw 8, commandId := byteAt raw 9 }
            payload := (raw.drop 10).take (raw.length - 12)
            raw := raw
            sum := crc16 ((raw.drop 2).take (raw.length - 4)) })

/-- R188: a frame with a right prefix and checksum is delivered whatever its header says: any `op`, `flags`, `length`,
`group`, `sequence`, `command-id`. -/
def Obligations.HeaderIsNotValidated : Prop :=
  ∀ (h : Header) (d : List Byte), d.length ≤ 65525 →
    frameParse (b64enc (rawFrame h d (crc16 (headerBytes h ++ d)))) =
      .ok { header := h, payload := d, raw := rawFrame h d (crc16 (headerBytes h ++ d))
            sum := crc16 (headerBytes h ++ d) }

/-- R187: `FRM.DEC` delivers a good frame and takes the fault of a bad one. That the bytes of `RBUF` at and beyond the
new `RLEN` keep their values (in `DeliveredFrame`) is the model's choice (log 28: 93 I6 leaves them open). -/
def Obligations.FrmDecChecksAndDelivers : Prop :=
  decodeCommand 0x41 = .ok .frmDec ∧
  (∀ s : State, s.errf = true → exec .frmDec s = .next s) ∧
  ∀ s : State, s.errf = false →
    ∃ t, exec .frmDec s = .next t ∧
      match frameParse (s.tbuf.read 0 s.tlen.toNat) with
      | .error (code, info) => RaisedFrmDec code info s t
      | .ok f => if fits f.raw.length s.caps.rbuf then DeliveredFrame f s t else RaisedFrmDec .cfg 3 s t

/-- R189, whole: encoding, then decoding the wire bytes with markers and newlines removed, gives back the header fields
and the payload. -/
def Obligations.FrameRoundTrip : Prop :=
  ∀ (op : Byte) (group : Half) (seq id : Byte) (d : List Byte) (linelen : Nat), d.length ≤ 65525 → 5 ≤ linelen →
    ∃ f, frameParse (stripWire (lineSplit (b64enc (frameBytes op group seq id d)) (linelen - 4))) = .ok f ∧
      f.header.op = op ∧ f.header.flags = 0 ∧ f.header.length.toNat = d.length ∧ f.header.group = group ∧
      f.header.sequence = seq ∧ f.header.commandId = id ∧ f.payload = d ∧ f.raw = frameBytes op group seq id d ∧
      f.sum = crc16 (headerBytes f.header ++ d)

/-- The round trip on the machine (R166, R187, R189): `FRM.ENC`, the text loaded into `TBUF`, `FRM.DEC`, in a block with
unbounded buffers, bring the transmit header and the payload back in the receive header and `RBUF`. -/
def Obligations.FrmEncThenFrmDecReturnsTheRequest : Prop :=
  ∀ (s t : State) (text : List Byte), s.errf = false → 5 ≤ s.linelen.toNat → s.plen.toNat ≤ 65525 →
    s.caps = Config.unbounded → exec .frmEnc s = .next t → text = stripWire (wireOperand t) →
    ∃ u, exec .frmDec { t with tbuf := t.tbuf.write 0 text, tlen := BitVec.ofNat 32 text.length } = .next u ∧
      u.errf = false ∧ u.rxhOp = s.txhOp ∧ u.rxhFlags = 0 ∧ u.rxhLen = s.plen ∧ u.rxhGroup = s.txhGroup ∧
      u.rxhSeq = s.txhSeq ∧ u.rxhCmd = s.txhCmd ∧ u.rplen = s.plen ∧ u.crc = t.crc ∧
      u.rbuf.read 10 u.rplen.toNat = s.pbuf.read 0 s.plen.toNat

/-- R190, first part: one bit of a good raw frame's header or payload flipped before decode is a checksum mismatch. -/
def Obligations.FlippedRawBitIsAChecksumMismatch : Prop :=
  ∀ (raw : List Byte) (f : ParsedFrame) (i k : Nat) (h : i < raw.length), rawParse raw = .ok f →
    2 ≤ i → i < raw.length - 2 → k < 8 →
    ∃ c, frameParse (b64enc (raw.set i (raw[i] ^^^ (1 <<< k)))) = .error (.crc, c)

/-- R190: one bit of any byte of an accepted text flipped on the wire: "In no case is the altered frame accepted". -/
def Obligations.FlippedTextBitIsNeverAccepted : Prop :=
  ∀ (text : List Byte) (f g : ParsedFrame) (i k : Nat) (h : i < text.length), frameParse text = .ok f → k < 8 →
    frameParse (text.set i (text[i] ^^^ (1 <<< k))) ≠ .ok g

/-- R191: any other length prefix is a length mismatch, whatever the checksum. -/
def Obligations.WrongPrefixIsALengthMismatch : Prop :=
  ∀ (raw : List Byte) (p : Half), 12 ≤ raw.length → p.toNat ≠ raw.length - 2 →
    frameParse (b64enc (be16 p ++ raw.drop 2)) = .error (.len, p)

/-- R214: the first line of a response in several lines never passes; it is `ERR_B64`, `ERR_SHORT` or `ERR_LEN`. -/
def Obligations.MultiLineResponseNeverPasses : Prop :=
  ∀ (h : Header) (d : List Byte) (c : Half) (w : Nat), d.length ≤ 65525 → 1 ≤ w →
    w < (b64enc (rawFrame h d c)).length →
    ∃ code info, frameParse ((b64enc (rawFrame h d c)).take w) = .error (code, info) ∧
      (code = .b64 ∨ code = .short ∨ code = .len)

/-! ## The framing state machine. The environment's events stand in the script `env` (log 9). -/

/-- R202: the command sets `XSTATE` to `OPENING`; the steps follow, with the host blocked (log 18). -/
def Obligations.XcvBeginsAnExchange : Prop :=
  decodeCommand 0x50 = .ok .xcv ∧
  (∀ s : State, s.errf = false → exec .xcv s = .next { s with xstate := .opening }) ∧
  (∀ s : State, s.errf = true → exec .xcv s = .next s) ∧
  (∀ s : State, s.errf = false → s.performs (.wr 0 0x50) → step s = .next { s with cmd := 0x50, xstate := .opening })

/-- R203, R204: open, then flush; the open may fail, and then `RXFIFO` is untouched and nothing was sent. -/
def Obligations.XcvOpensThenFlushes : Prop :=
  (∀ s : State, s.env = [] → s.xstate = .opening → step s = .next { s with portOpen := true, xstate := .flush }) ∧
  (∀ (s : State) (rest : List EnvEvent), s.errf = false → s.env = .openFail :: rest → s.xstate = .opening →
    ∃ t, step s = .next t ∧ RaisedXcv .ioOpen 0 { s with env := rest, stopped := true } t) ∧
  (∀ s : State, s.env = [] → s.xstate = .flush → step s = .next { s with rxfifo := [], widx := 0, xstate := .write })

/-- R205: every byte of the frame in increasing offset, each once; the write of any byte may fail; after the last,
`TLEN` is cleared and the wait for the marker begins (the timer: R34, log 12). That the bytes of `TBUF` keep their values
when `TLEN` is cleared is the model's choice (log 29: 93 I6 leaves them open). -/
def Obligations.XcvWritesTheFrame : Prop :=
  (∀ s : State, s.env = [] → s.xstate = .write → s.widx.toNat < s.wlen.toNat →
    step s = .next { s with txout := s.txout ++ [s.wbuf.byte s.widx.toNat], widx := s.widx + 1 }) ∧
  (∀ (s : State) (rest : List EnvEvent), s.errf = false → s.env = .writeFail s.widx.toNat :: rest →
    s.xstate = .write → s.widx.toNat < s.wlen.toNat →
    ∃ t, step s = .next t ∧
      RaisedXcv .ioWrite (BitVec.ofNat 16 (s.widx.toNat % 65536)) { s with env := rest, stopped := true } t) ∧
  (∀ s : State, s.env = [] → s.xstate = .write → s.wlen.toNat ≤ s.widx.toNat →
    step s = .next { s with tlen := 0, xstate := .waitM0, tmr := timerAfter s.rxfifo s })

/-- R206, R207: the first two bytes must be `06 09`; any other is `ERR_MARKER` with its index and value. `TMR` after an
accepted byte (R34, R218) is the model's choice of the step in which it is loaded (log 12). -/
def Obligations.XcvWaitsForTheMarker : Prop :=
  (∀ (s : State) (q : List Byte), s.env = [] → s.xstate = .waitM0 → s.rxfifo = 0x06 :: q →
    step s = .next { s with rxfifo := q, xstate := .waitM1, tmr := timerAfter q s }) ∧
  (∀ (s : State) (q : List Byte) (b : Byte), s.errf = false → s.env = [] → s.xstate = .waitM0 → s.rxfifo = b :: q →
    b ≠ 0x06 → ∃ t, step s = .next t ∧
      RaisedXcv .marker (BitVec.ofNat 16 b.toNat) { s with rxfifo := q, stopped := true } t) ∧
  (∀ (s : State) (q : List Byte), s.env = [] → s.xstate = .waitM1 → s.rxfifo = 0x09 :: q →
    step s = .next { s with rxfifo := q, xstate := .body, tmr := timerAfter q s }) ∧
  (∀ (s : State) (q : List Byte) (b : Byte), s.errf = false → s.env = [] → s.xstate = .waitM1 → s.rxfifo = b :: q →
    b ≠ 0x09 → ∃ t, step s = .next t ∧
      RaisedXcv .marker (BitVec.ofNat 16 (0x0100 + b.toNat)) { s with rxfifo := q, stopped := true } t)

/-- R208, R209: every byte but `0A` is stored at `TBUF[TLEN]`; a full `TBUF` is `ERR_OVERRUN`; `0A` ends the line and
closes the device. The model's choices: the step in which `TMR` is loaded (R34, R218; log 12); after a byte at
`TLEN = 2^32 - 1`, a `TLEN` of which nothing is said (log 7); and that the bytes of `TBUF` at and beyond the new `TLEN`
keep their values (log 29: 93 I6 leaves them open). -/
def Obligations.XcvGathersTheLine : Prop :=
  (∀ (s : State) (q : List Byte), s.env = [] → s.xstate = .body → s.rxfifo = 0x0A :: q →
    step s = .next { s with rxfifo := q, xstate := .decode, portOpen := false }) ∧
  (∀ (s : State) (q : List Byte) (b : Byte), s.env = [] → s.xstate = .body → s.rxfifo = b :: q → b ≠ 0x0A →
    s.caps.tbuf ≠ some s.tlen.toNat → s.tlen.toNat + 1 < 2 ^ 32 →
    ∃ t, step s = .next t ∧ t.tbuf.byte s.tlen.toNat = b ∧
      (∀ a, a ≠ s.tlen.toNat → t.tbuf.byte a = s.tbuf.byte a) ∧
      t = { s with rxfifo := q, tbuf := t.tbuf, tlen := s.tlen + 1, tmr := timerAfter q s }) ∧
  (∀ (s : State) (q : List Byte) (b : Byte), s.env = [] → s.xstate = .body → s.rxfifo = b :: q → b ≠ 0x0A →
    s.caps.tbuf ≠ some s.tlen.toNat → s.tlen.toNat + 1 = 2 ^ 32 →
    ∃ t, step s = .next t ∧ t.tbuf.byte s.tlen.toNat = b ∧
      (∀ a, a ≠ s.tlen.toNat → t.tbuf.byte a = s.tbuf.byte a) ∧
      t = { s with rxfifo := q, tbuf := t.tbuf, tlen := t.tlen, tmr := timerAfter q s, draws := t.draws }) ∧
  (∀ (s : State) (q : List Byte) (b : Byte), s.errf = false → s.env = [] → s.xstate = .body → s.rxfifo = b :: q →
    b ≠ 0x0A → s.caps.tbuf = some s.tlen.toNat →
    ∃ t, step s = .next t ∧ RaisedXcv .overrun 0 { s with rxfifo := q, stopped := true } t)

/-- R210: the frame is checked as by `FRM.DEC`; on success the exchange is over and the host's operation complete (the
bytes of `RBUF` at and beyond the new `RLEN` in `DeliveredFrame`: log 28). -/
def Obligations.XcvChecksTheFrame : Prop :=
  ∀ s : State, s.errf = false → s.env = [] → s.xstate = .decode →
    ∃ t, step s = .next t ∧
      match frameParse (s.tbuf.read 0 s.tlen.toNat) with
      | .error (code, info) => RaisedXcv code info { s with stopped := true } t
      | .ok f =>
        if fits f.raw.length s.caps.rbuf then DeliveredFrame f { s with xstate := .idle, pc := s.pc + 1 } t
        else RaisedXcv .cfg 3 { s with stopped := true } t

/-- R206, R208, R217, R218, R277: at a wait on the empty queue the timeout or a read failure ends the exchange; while a
byte is available neither can, and the machine takes the byte; with no event the wait goes on. Two points are the
model's: that a read failure, as the timeout, cannot happen while a byte is available (log 21, read from R206, R208 and
R277), and `TMR = 0` after the timeout (log 12). -/
def Obligations.TimeoutAndReadFailureOnlyOnAnEmptyQueue : Prop :=
  (∀ (s : State) (rest : List EnvEvent), s.errf = false → s.xstate.receiving = true → s.rxfifo = [] →
    s.env = .timeout :: rest →
    ∃ t, step s = .next t ∧ RaisedXcv .timeout 0 { s with env := rest, stopped := true, tmr := 0 } t) ∧
  (∀ (s : State) (rest : List EnvEvent), s.errf = false → s.xstate.receiving = true → s.rxfifo = [] →
    s.env = .readFail :: rest →
    ∃ t, step s = .next t ∧ RaisedXcv .ioRead 0 { s with env := rest, stopped := true } t) ∧
  (∀ (s t : State) (e : EnvEvent) (rest : List EnvEvent), s.xstate.receiving = true → s.rxfifo ≠ [] →
    e = .timeout ∨ e = .readFail → step { s with env := [] } = .next t →
    step { s with env := e :: rest } = .next { t with env := e :: rest }) ∧
  (∀ s : State, s.xstate.receiving = true → s.rxfifo = [] → s.env = [] → step s = .next s)

/-- R34: a timer loaded with `TIMEOUT` runs out after that many ticks of a wait, and not before (log 12). -/
def Obligations.TimerRunsOutAfterTimeoutTicks : Prop :=
  ∀ (s : State) (k : Nat), s.errf = false → s.xstate.receiving = true → s.rxfifo = [] → s.tmr = s.timeout →
    s.env = List.replicate k .tick →
    (k < s.timeout.toNat →
      runsTo k s { s with env := [], tmr := BitVec.ofNat 32 (s.timeout.toNat - k) }) ∧
    (k = s.timeout.toNat → 1 ≤ k →
      ∃ t, runsTo k s t ∧ RaisedXcv .timeout 0 { s with env := [], stopped := true, tmr := 0 } t)

/-- R216, R276: bytes that arrive while the machine is not waiting, those of a wire symbol too, go to the tail of
`RXFIFO` and change nothing else. -/
def Obligations.ArrivalOutsideAWaitOnlyQueues : Prop :=
  (∀ (s : State) (bytes : List Byte) (rest : List EnvEvent), s.waiting = false → s.env = .push bytes :: rest →
    step s = .next { s with env := rest, rxfifo := s.rxfifo ++ bytes }) ∧
  (∀ s : State, s.waiting = false →
    exec .markStart s = .next { s with rxfifo := s.rxfifo ++ [0x06, 0x09] } ∧
    exec .markCont s = .next { s with rxfifo := s.rxfifo ++ [0x04, 0x14] } ∧
    exec .term s = .next { s with rxfifo := s.rxfifo ++ [0x0A] })

/-- R91 with R206 to R209: what the three wire symbols do to a machine that waits on an empty queue, in each of its three
states (log 10, log 11); in `BODY` a marker is content, the whole of it, its first byte only, or none of it as `TBUF` has
room. `TMR` after each accepted byte (R34, R218) is the model's choice (log 12). A `TLEN` that a marker would take
past `2^32 - 1` is left out (log 7). That the bytes of `TBUF` at and beyond the new `TLEN` keep their values is the model's
choice (log 29: 93 I6 leaves them open). -/
def Obligations.WireSymbolsAtAWaitingReceiver : Prop :=
  ∀ s : State, s.errf = false → s.rxfifo = [] →
    (s.xstate = .waitM0 →
      exec .markStart s = .next { s with xstate := .body, tmr := s.timeout } ∧
      (∃ t, exec .markCont s = .next t ∧ RaisedXcv .marker 0x0004 { s with rxfifo := [0x14] } t) ∧
      (∃ t, exec .term s = .next t ∧ RaisedXcv .marker 0x000A s t)) ∧
    (s.xstate = .waitM1 →
      (∃ t, exec .markStart s = .next t ∧ RaisedXcv .marker 0x0106 { s with rxfifo := [0x09] } t) ∧
      (∃ t, exec .markCont s = .next t ∧ RaisedXcv .marker 0x0104 { s with rxfifo := [0x14] } t) ∧
      (∃ t, exec .term s = .next t ∧ RaisedXcv .marker 0x010A s t)) ∧
    (s.xstate = .body →
      exec .term s = .next { s with xstate := .decode, portOpen := false } ∧
      (s.caps.tbuf ≠ some s.tlen.toNat → s.caps.tbuf ≠ some (s.tlen.toNat + 1) → s.tlen.toNat + 2 < 2 ^ 32 →
        (∃ t, exec .markStart s = .next t ∧
          t.tbuf.read 0 (s.tlen.toNat + 2) = s.tbuf.read 0 s.tlen.toNat ++ [0x06, 0x09] ∧
          (∀ a, a < s.tlen.toNat ∨ s.tlen.toNat + 2 ≤ a → t.tbuf.byte a = s.tbuf.byte a) ∧
          t = { s with tbuf := t.tbuf, tlen := s.tlen + 2, tmr := s.timeout }) ∧
        (∃ t, exec .markCont s = .next t ∧
          t.tbuf.read 0 (s.tlen.toNat + 2) = s.tbuf.read 0 s.tlen.toNat ++ [0x04, 0x14] ∧
          (∀ a, a < s.tlen.toNat ∨ s.tlen.toNat + 2 ≤ a → t.tbuf.byte a = s.tbuf.byte a) ∧
          t = { s with tbuf := t.tbuf, tlen := s.tlen + 2, tmr := s.timeout })) ∧
      (s.caps.tbuf = some (s.tlen.toNat + 1) → s.tlen.toNat + 1 < 2 ^ 32 →
        (∃ t, exec .markStart s = .next t ∧ RaisedXcv .overrun 0 { s with tmr := s.timeout } t) ∧
        (∃ t, exec .markCont s = .next t ∧ RaisedXcv .overrun 0 { s with tmr := s.timeout } t)) ∧
      (s.caps.tbuf = some s.tlen.toNat →
        (∃ t, exec .markStart s = .next t ∧ RaisedXcv .overrun 0 { s with rxfifo := [0x09] } t) ∧
        (∃ t, exec .markCont s = .next t ∧ RaisedXcv .overrun 0 { s with rxfifo := [0x14] } t)))

/-- R223, R219: what a waiting machine makes of the bytes the device appends after the flush, when nothing fails and no
timeout occurs. The model's choices: the bytes are taken as they arrive, all in one call (log 10), and `TMR` (R34, R218)
is loaded with each accepted byte (log 12). -/
def Obligations.ReceiveHalfAsAFunction : Prop :=
  ∀ s : State, s.errf = false → s.xstate = .waitM0 → s.rxfifo = [] → s.tlen = 0 → s.caps.tbuf = none →
    arriveBytes [] s = s ∧
    arriveBytes [0x06] s = { s with xstate := .waitM1, tmr := s.timeout } ∧
    (∀ (b0 : Byte) (rest : List Byte), b0 ≠ 0x06 →
      RaisedXcv .marker (BitVec.ofNat 16 b0.toNat) { s with rxfifo := rest } (arriveBytes (b0 :: rest) s)) ∧
    (∀ (b1 : Byte) (rest : List Byte), b1 ≠ 0x09 →
      RaisedXcv .marker (BitVec.ofNat 16 (0x0100 + b1.toNat)) { s with rxfifo := rest, tmr := s.timeout }
        (arriveBytes (0x06 :: b1 :: rest) s)) ∧
    (∀ content rest : List Byte, 0x0A ∉ content → content.length < 2 ^ 32 →
      ∃ t, arriveBytes ([0x06, 0x09] ++ content ++ [0x0A] ++ rest) s = t ∧ t.xstate = .decode ∧
        t.portOpen = false ∧ t.tlen.toNat = content.length ∧ t.tbuf.read 0 content.length = content ∧
        t.rxfifo = rest ∧ t.errf = false) ∧
    (∀ content : List Byte, 0x0A ∉ content → content.length < 2 ^ 32 →
      ∃ t, arriveBytes ([0x06, 0x09] ++ content) s = t ∧ t.xstate = .body ∧ t.waiting = true ∧
        t.tlen.toNat = content.length ∧ t.tbuf.read 0 content.length = content ∧ t.errf = false)

/-- R211, R200, R209: a whole exchange. The host issues `XCV`; once the frame is out the device answers with one good
line and perhaps more bytes. The exchange completes: what was sent, what was received, what is left in the queue, and
what is unchanged. -/
def Obligations.XcvDeliversOneGoodLine : Prop :=
  ∀ (s : State) (content rest : List Byte) (f : ParsedFrame),
    s.errf = false → s.xstate.busy = false → s.stopped = false → s.program[s.pc]? = some (.wr 0 0x50) →
    s.env = [.await .waitM0, .push ([0x06, 0x09] ++ content ++ [0x0A] ++ rest)] →
    0x0A ∉ content → content.length < 2 ^ 32 → s.caps = Config.unbounded → frameParse content = .ok f →
    ∃ n t, runsTo n s t ∧ t.xstate = .idle ∧ t.portOpen = false ∧ t.errf = false ∧ t.pc = s.pc + 1 ∧
      t.txout = s.txout ++ s.wbuf.read 0 s.wlen.toNat ∧
      t.tlen.toNat = content.length ∧ t.tbuf.read 0 content.length = content ∧ t.rxfifo = rest ∧
      t.rbuf.read 0 f.raw.length = f.raw ∧ t.rlen.toNat = f.raw.length ∧ t.crc = f.sum ∧
      t.rxhOp = f.header.op ∧ t.rxhFlags = f.header.flags ∧ t.rxhLen = f.header.length ∧
      t.rxhGroup = f.header.group ∧ t.rxhSeq = f.header.sequence ∧ t.rxhCmd = f.header.commandId ∧
      t.rplen.toNat = f.payload.length ∧ SameRequest s t

/-! ## Faults -/

/-- R280: the fault entry, and nothing else; R271: the number of each fault. -/
def Obligations.FaultEntry : Prop :=
  (FaultCode.ioOpen.code = 1 ∧ FaultCode.ioWrite.code = 2 ∧ FaultCode.ioRead.code = 3 ∧ FaultCode.timeout.code = 4 ∧
    FaultCode.marker.code = 5 ∧ FaultCode.b64.code = 6 ∧ FaultCode.short.code = 7 ∧ FaultCode.len.code = 8 ∧
    FaultCode.crc.code = 9 ∧ FaultCode.payload.code = 10 ∧ FaultCode.overrun.code = 11 ∧ FaultCode.cfg.code = 12 ∧
    FaultCode.cmd.code = 13) ∧
  ∀ (c : FaultCode) (info : Half) (s : State),
    raiseFault c info s =
      { s with err := c.code, errinfo := info, status := raiseErrf s.status, portOpen := false, xstate := .fault } ∧
    (raiseFault c info s).errf = true ∧ (raiseFault c info s).mtuovf = s.mtuovf ∧
    1 ≤ c.code.toNat ∧ c.code.toNat ≤ 13

/-- R96: every code but the nine is illegal, 247 of them, and raises `ERR_CMD` with the code as its detail; `CMD` holds
the code (log 14) and the host program stops (R23, log 13). -/
def Obligations.IllegalCodesFault : Prop :=
  ((List.range 256).filter fun n => (decodeCommand (BitVec.ofNat 8 n)).toOption.isNone).length = 247 ∧
  ∀ (s : State) (code : Byte), s.errf = false → s.performs (.wr 0 code.toNat) →
    code ∉ ([0x10, 0x20, 0x21, 0x22, 0x30, 0x31, 0x40, 0x41, 0x50] : List Byte) →
    step s = .next { s with
      cmd := code, err := 13, errinfo := BitVec.ofNat 16 code.toNat, status := raiseErrf s.status, portOpen := false
      xstate := .fault, stopped := true }

/-- R282: after a fault every command does nothing at all, and an illegal code is not diagnosed. -/
def Obligations.CommandsDoNothingAfterAFault : Prop :=
  (∀ (i : Instr) (s : State), channelOf i = .command → s.errf = true → exec i s = .next s) ∧
  (∀ (s : State) (v : Nat), v < 256 → s.errf = true → s.performs (.wr 0 v) →
    step s = .next { s with pc := s.pc + 1 })

/-- R281, R282: `ERRF`, `ERR`, `ERRINFO` and the state `FAULT` keep their values at every step that is not a reset. -/
def Obligations.FaultsArePermanent : Prop :=
  ∀ s t : State, s.Inv → s.errf = true → (∀ seed rx rest, s.env ≠ .reset seed rx :: rest) → step s = .next t →
    t.errf = true ∧ t.err = s.err ∧ t.errinfo = s.errinfo ∧ t.xstate = .fault ∧ t.portOpen = false

/-- R24, R280, R314: no instruction, whether it faults or not, changes `PBUF`, `PLEN`, `DATA`, the configuration, the
request header or `TXOUT`; only `SEQ.NEXT` touches `SEQ` and `RES`; only `FRM.ENC` the wire bytes, `TXH_LEN` and `MTUOVF`.
(`TBUF` and `TLEN`, which the host may write too, are outputs of `B64.ENC` and of a receiver and are not among these.) -/
def Obligations.InstructionsLeaveTheHostsDataAlone : Prop :=
  ∀ (i : Instr) (s t : State), exec i s = .next t →
    t.pbuf = s.pbuf ∧ t.plen = s.plen ∧ t.data = s.data ∧ t.linelen = s.linelen ∧ t.mtu = s.mtu ∧
    t.timeout = s.timeout ∧ t.txhOp = s.txhOp ∧ t.txhGroup = s.txhGroup ∧ t.txhSeq = s.txhSeq ∧
    t.txhCmd = s.txhCmd ∧ t.txout = s.txout ∧
    (i ≠ .seqNext → t.seq = s.seq ∧ t.res = s.res) ∧
    (i ≠ .frmEnc → t.wbuf = s.wbuf ∧ t.wlen = s.wlen ∧ t.txhLen = s.txhLen ∧ t.mtuovf = s.mtuovf)

/-! ## Bus operations -/

/-- R241, R246, R66, R21: a well-formed write of a register other than `CMD` stores the value in the field of that
number, changes nothing else, and works after a fault too. -/
def Obligations.WriteRegisterStoresTheValue : Prop :=
  (∀ (s : State) (r : Reg) (v : Nat), r.writable = true → r ≠ .CMD → v < 2 ^ r.width →
    lengthFits r v s.caps = true → s.performs (.wr r.number v) →
    ∃ t, step s = .next t ∧ readReg r t = v ∧ (∀ r', r' ≠ r → readReg r' t = readReg r' s) ∧
      (∀ b, t.buffer b = s.buffer b) ∧ t.seq = s.seq ∧ t.xstate = s.xstate ∧ t.txout = s.txout ∧
      t.rxfifo = s.rxfifo ∧ t.reads = s.reads ∧ t.pc = s.pc + 1 ∧ t.portOpen = s.portOpen ∧ t.widx = s.widx ∧
      t.tmr = s.tmr) ∧
  (∀ (s : State) (v : Byte),
    (s.performs (.wr 0x06 v.toNat) → step s = .next { s with data := v, pc := s.pc + 1 }) ∧
    (s.performs (.wr 0x10 v.toNat) → step s = .next { s with txhOp := v, pc := s.pc + 1 }) ∧
    (s.performs (.wr 0x14 v.toNat) → step s = .next { s with txhSeq := v, pc := s.pc + 1 }) ∧
    (s.performs (.wr 0x15 v.toNat) → step s = .next { s with txhCmd := v, pc := s.pc + 1 })) ∧
  (∀ (s : State) (v : Half),
    (s.performs (.wr 0x07 v.toNat) → step s = .next { s with linelen := v, pc := s.pc + 1 }) ∧
    (s.performs (.wr 0x13 v.toNat) → step s = .next { s with txhGroup := v, pc := s.pc + 1 }) ∧
    (s.performs (.wr 0x0A v.toNat) → fits v.toNat s.caps.pbufMax = true →
      step s = .next { s with plen := v, pc := s.pc + 1 })) ∧
  (∀ (s : State) (v : Word),
    (s.performs (.wr 0x08 v.toNat) → step s = .next { s with mtu := v, pc := s.pc + 1 }) ∧
    (s.performs (.wr 0x09 v.toNat) → step s = .next { s with timeout := v, pc := s.pc + 1 }) ∧
    (s.performs (.wr 0x0B v.toNat) → fits v.toNat s.caps.tbuf = true →
      step s = .next { s with tlen := v, pc := s.pc + 1 }))

/-- R242, R66, R21: a read returns the value of the register of that number and changes nothing; the value is recorded
for the host (log 20). -/
def Obligations.ReadRegisterChangesNothing : Prop :=
  (∀ (s : State) (r : Reg), r ≠ .CMD → s.performs (.rd r.number) →
    step s = .next { s with reads := s.reads ++ [.reg (readReg r s)], pc := s.pc + 1 }) ∧
  (∀ (s : State) (n v : Nat), s.performs (.rd n) →
    (n, v) ∈
      [(0x01, (if s.errf then 1 else 0) + (if s.mtuovf then 2 else 0)), (0x02, s.err.toNat), (0x03, s.errinfo.toNat),
        (0x04, s.res.toNat), (0x05, s.crc.toNat), (0x06, s.data.toNat), (0x07, s.linelen.toNat), (0x08, s.mtu.toNat),
        (0x09, s.timeout.toNat), (0x0A, s.plen.toNat), (0x0B, s.tlen.toNat), (0x0C, s.wlen.toNat),
        (0x0D, s.rlen.toNat), (0x0E, s.rplen.toNat), (0x10, s.txhOp.toNat), (0x11, 0), (0x12, s.txhLen.toNat),
        (0x13, s.txhGroup.toNat), (0x14, s.txhSeq.toNat), (0x15, s.txhCmd.toNat), (0x18, s.rxhOp.toNat),
        (0x19, s.rxhFlags.toNat), (0x1A, s.rxhLen.toNat), (0x1B, s.rxhGroup.toNat), (0x1C, s.rxhSeq.toNat),
        (0x1D, s.rxhCmd.toNat)] →
    step s = .next { s with reads := s.reads ++ [.reg v], pc := s.pc + 1 })

/-- R243, R66: the bytes are stored in `PBUF` or `TBUF` at the offset; no other byte, no register (a length register
least of all), nothing else but the host's index changes. -/
def Obligations.WriteBufferStoresTheBytes : Prop :=
  (∀ (s : State) (b : Buf) (off : Nat) (bytes : List Byte), b = .PBUF ∨ b = .TBUF →
    fits (off + bytes.length) (capacityOf s.caps b) = true → s.performs (.wrb b off bytes) →
    ∃ t, step s = .next t ∧ (t.buffer b).read off bytes.length = bytes ∧
      (∀ a, a < off ∨ off + bytes.length ≤ a → (t.buffer b).byte a = (s.buffer b).byte a) ∧
      (∀ b', b' ≠ b → t.buffer b' = s.buffer b') ∧ (∀ r, readReg r t = readReg r s) ∧
      t = { s with pbuf := t.pbuf, tbuf := t.tbuf, pc := s.pc + 1 }) ∧
  (∀ s : State, s.buffer .PBUF = s.pbuf ∧ s.buffer .TBUF = s.tbuf ∧ s.buffer .WBUF = s.wbuf ∧ s.buffer .RBUF = s.rbuf)

/-- R244, R66: a read of bytes below the length register returns the buffer's bytes and changes nothing else. One that
reaches or passes the length register completes too, returns the buffer's bytes below it and bytes of which nothing is
said from there on, and changes nothing but the model's own counter of draws (log 4). What is returned is recorded for
the host (log 20). -/
def Obligations.ReadBufferReturnsTheBytes : Prop :=
  (∀ (s : State) (b : Buf) (off n : Nat), fits (off + n) (capacityOf s.caps b) = true → off + n ≤ s.lengthOf b →
    s.performs (.rdb b off n) →
    step s = .next { s with reads := s.reads ++ [.bytes ((s.buffer b).read off n)], pc := s.pc + 1 }) ∧
  (∀ (s : State) (b : Buf) (off n : Nat), fits (off + n) (capacityOf s.caps b) = true → s.lengthOf b < off + n →
    s.performs (.rdb b off n) →
    ∃ (bytes : List Byte) (t : State), step s = .next t ∧ bytes.length = n ∧
      (∀ i, i < n → off + i < s.lengthOf b → bytes[i]? = some ((s.buffer b).byte (off + i))) ∧
      t = { s with reads := s.reads ++ [.bytes bytes], pc := s.pc + 1, draws := t.draws })

/-- R41: exactly these bus operations are refused. Registers by number: a number that names none, a read of `CMD`, a
write of one not marked W, a value too wide, a length beyond its buffer's capacity; an access beyond a buffer's
capacity; a write of `WBUF` or `RBUF`. -/
def Obligations.RefusedBusOperations : Prop :=
  (∀ (s : State) (n : Nat), s.performs (.rd n) →
    ((∃ r, step s = .refused r) ↔ n ∈ [0x00, 0x0F, 0x16, 0x17] ∨ 0x1E ≤ n)) ∧
  (∀ (s : State) (n v : Nat), s.performs (.wr n v) →
    ((∃ r, step s = .refused r) ↔
      ¬ ((n ∈ [0x00, 0x06, 0x10, 0x14, 0x15] ∧ v < 2 ^ 8) ∨ (n ∈ [0x07, 0x13] ∧ v < 2 ^ 16) ∨
        (n ∈ [0x08, 0x09] ∧ v < 2 ^ 32) ∨ (n = 0x0A ∧ v < 2 ^ 16 ∧ fits v s.caps.pbufMax = true) ∨
        (n = 0x0B ∧ v < 2 ^ 32 ∧ fits v s.caps.tbuf = true)))) ∧
  (∀ (s : State) (b : Buf) (off : Nat) (bytes : List Byte), s.performs (.wrb b off bytes) →
    ((∃ r, step s = .refused r) ↔
      b = .WBUF ∨ b = .RBUF ∨ fits (off + bytes.length) (capacityOf s.caps b) = false)) ∧
  (∀ (s : State) (b : Buf) (off n : Nat), s.performs (.rdb b off n) →
    ((∃ r, step s = .refused r) ↔ fits (off + n) (capacityOf s.caps b) = false))

/-- R22, R29: `STATUS` reads as its two flags with bits 7:2 zero, and `TXH_FLAGS` reads as zero and cannot be written. -/
def Obligations.StatusAndFlagsReadAsWired : Prop :=
  (∀ s : State, readReg .STATUS s = (if s.errf then 1 else 0) + (if s.mtuovf then 2 else 0)) ∧
  (∀ s : State, readReg .TXH_FLAGS s = 0) ∧
  (∀ (s : State) (v : Nat), s.performs (.wr 0x11 v) → ∃ r, step s = .refused r)

/-- R94, R65, R202: while an exchange is in progress the host is blocked. No step that is not a reset changes `SEQ`, `RES`,
`DATA`, the configuration, `TXH_*`, `PBUF`, `PLEN`, `WBUF`, `WLEN`, `CMD`, the host's program or what it has read, and its
index moves only when the exchange ends. (`TBUF`, `TLEN` and the decode outputs are the exchange's own: R205, R208, R210.) -/
def Obligations.HostIsBlockedDuringAnExchange : Prop :=
  ∀ s t : State, s.xstate.busy = true → (∀ seed rx rest, s.env ≠ .reset seed rx :: rest) → step s = .next t →
    SameRequest s t ∧ t.cmd = s.cmd ∧ t.program = s.program ∧ t.reads = s.reads ∧ t.caps = s.caps ∧
    (t.xstate.busy = true → t.pc = s.pc ∧ t.stopped = s.stopped)

/-! ## Reset and invariants -/

/-- R39, R301: the table of reset values. -/
def Obligations.ResetValues : Prop :=
  ∀ s : State, s = State.reset →
    s.seq = Config.seed ∧ s.crc = 0 ∧ s.res = 0 ∧ s.data = 0 ∧ s.status = 0 ∧ s.errf = false ∧ s.mtuovf = false ∧
    s.err = 0 ∧ s.errinfo = 0 ∧ s.linelen = 0 ∧ s.mtu = 0 ∧ s.timeout = 0 ∧ s.plen = 0 ∧ s.tlen = 0 ∧ s.wlen = 0 ∧
    s.rlen = 0 ∧ s.rplen = 0 ∧ s.txhOp = 0 ∧ s.txhGroup = 0 ∧ s.txhSeq = 0 ∧ s.txhCmd = 0 ∧ s.txhLen = 0 ∧
    readReg .TXH_FLAGS s = 0 ∧ s.rxhOp = 0 ∧ s.rxhFlags = 0 ∧ s.rxhLen = 0 ∧ s.rxhGroup = 0 ∧ s.rxhSeq = 0 ∧
    s.rxhCmd = 0 ∧ s.xstate = .idle ∧ s.widx = 0 ∧ s.tmr = 0 ∧ s.portOpen = false ∧ s.txout = [] ∧ s.pc = 0

/-- R300 to R302: a reset in any state, also inside an exchange or after a fault, gives the reset values with the seed
and the queue drawn at it; the host's program starts over (log 15). -/
def Obligations.ResetLeavesAnyState : Prop :=
  ∀ (s : State) (seed : Byte) (rx : List Byte) (rest : List EnvEvent), s.env = .reset seed rx :: rest →
    ∃ t, step s = .next t ∧ t.seq = seed ∧ t.rxfifo = rx ∧
      t.crc = 0 ∧ t.res = 0 ∧ t.data = 0 ∧ t.status = 0 ∧ t.errf = false ∧ t.mtuovf = false ∧ t.err = 0 ∧ t.errinfo = 0 ∧
      t.linelen = 0 ∧ t.mtu = 0 ∧ t.timeout = 0 ∧ t.plen = 0 ∧ t.tlen = 0 ∧ t.wlen = 0 ∧ t.rlen = 0 ∧ t.rplen = 0 ∧
      t.txhOp = 0 ∧ t.txhGroup = 0 ∧ t.txhSeq = 0 ∧ t.txhCmd = 0 ∧ t.txhLen = 0 ∧ readReg .TXH_FLAGS t = 0 ∧
      t.rxhOp = 0 ∧ t.rxhFlags = 0 ∧ t.rxhLen = 0 ∧ t.rxhGroup = 0 ∧ t.rxhSeq = 0 ∧ t.rxhCmd = 0 ∧
      t.xstate = .idle ∧ t.widx = 0 ∧ t.tmr = 0 ∧ t.portOpen = false ∧ t.txout = [] ∧ t.pc = 0 ∧
      t.stopped = false ∧ t.program = s.program ∧ t.caps = s.caps ∧ t.env = rest

/-- The reset state satisfies the invariant. -/
def Obligations.ResetSatisfiesTheInvariant : Prop := State.reset.Inv

/-- Every step keeps the invariant, from every state that satisfies it: the buffers' canonical form (R32), `STATUS` bits
7:2 zero (R22), `ERRF` exactly in `FAULT` and exactly with a code in `ERR` (R22, R31, R33), the codes of R271, the device
open exactly from the open to the end of the line (R35, R212), the write index within the frame (R205), lengths within
capacities (R28). -/
def Obligations.EveryStepKeepsTheInvariant : Prop :=
  ∀ s t : State, s.Inv → step s = .next t → t.Inv

/-- R36, R74: no step but a reset takes a byte back from `TXOUT`, and a step sends at most one byte, from `WBUF`, in
state `WRITE`. -/
def Obligations.TransmittedBytesStayTransmitted : Prop :=
  ∀ s t : State, (∀ seed rx rest, s.env ≠ .reset seed rx :: rest) → step s = .next t →
    t.txout = s.txout ∨
      (s.xstate = .write ∧ s.widx.toNat < s.wlen.toNat ∧ t.txout = s.txout ++ [s.wbuf.byte s.widx.toNat])

/-! ## The host's protocol, outside the block (log 22) -/

/-- R254, R255: a shrink keeps offset and sequence id, strictly decreases the attempted length and leaves at least 1; a
frame within the MTU is sent. R253, R260: the fields of a chunk's payload, and that `length` and `data-hash` go with one
chunk, at offset 0, and with none after it. R256, R262: a response is correlated, then decoded. R257, R258, R261: the
device's offset is authoritative; no offset, or the chunk's own, fails the upload; a non-zero status fails it with that
code. R259: the image length ends it. The model's choices, not the spec's: an offset beyond the image length is followed
as any other, and no progress goes before the end where both hold (log 26); at a return to offset 0 nothing is announced
again, and a transfer that 32-bit fields cannot hold has no payload (log 27). -/
def Obligations.UploadShrinksAndFollowsTheDevice : Prop :=
  (∀ (u v : Session) (s : State), afterEncode u s = .shrinking v →
    s.mtuovf = true ∧ s.wlen.toNat - s.mtu.toNat ≤ u.attempted ∧ 1 ≤ v.attempted ∧ v.attempted < u.attempted ∧
    v.attempted = u.attempted - ((s.wlen.toNat - s.mtu.toNat) / 4 * 3 + shrinkMargin) ∧
    v = { u with attempted := v.attempted }) ∧
  (∀ (u : Session) (s : State), s.mtuovf = false →
    afterEncode u s = .sending { u with announced := u.announced || decide (u.offset = 0) }) ∧
  (∀ (slot : Int) (u : Session), u.offset < 2 ^ 32 → u.image.length < 2 ^ 32 →
    ∃ p, uploadPayload slot u = some p ∧ p.slot = slot ∧ p.offset.toNat = u.offset ∧
      p.data = (u.image.drop u.offset).take (min u.attempted (u.image.length - u.offset)) ∧
      (u.offset = 0 → u.announced = false →
        ∃ n, p.first = some (n, Config.imageDigest u.image) ∧ n.toNat = u.image.length) ∧
      (u.offset ≠ 0 ∨ u.announced = true → p.first = none)) ∧
  (∀ (slot : Int) (u : Session), 2 ^ 32 ≤ u.offset ∨ 2 ^ 32 ≤ u.image.length → uploadPayload slot u = none) ∧
  (∀ (op seq : Byte) (r : Reading),
    (r.seq ≠ seq.toNat → decodeReading op seq r = .error .seqMismatch) ∧
    (r.seq = seq.toNat → r.op ≠ op.toNat ∨ r.group ≠ Config.groupImage.toNat →
      decodeReading op seq r = .error .rspMismatch) ∧
    (r.seq = seq.toNat → r.op = op.toNat → r.group = Config.groupImage.toNat →
      decodeReading op seq r =
        match Config.payloadDecode r.body with
        | none => .error .payload
        | some p => .ok p)) ∧
  (∀ (u : Session) (v : Nat), v ≠ u.offset → v ≠ u.image.length →
    afterResponse u { status := 0, offset := some v } = .advancing { u with offset := v } ∨
    afterResponse u { status := 0, offset := some v } = .resyncing { u with offset := v }) ∧
  (∀ u : Session, u.offset ≠ u.image.length →
    afterResponse u { status := 0, offset := some u.image.length } = .done) ∧
  (∀ u : Session, afterResponse u { status := 0, offset := some u.offset } = .failed .noProgress) ∧
  (∀ u : Session, afterResponse u { status := 0, offset := none } = .failed .noProgress) ∧
  (∀ (u : Session) (n : Nat) (o : Option Nat), n ≠ 0 →
    afterResponse u { status := n, offset := o } = .failed (.deviceError n))
end

