-- ==== Sys2Proof/Laws/Base64.lean ====
section
/-! SUPPORT. The laws of base64 (42_base64.md): characters and values are inverse, and each form of a decoded group is
exactly what the encoder writes for one, two or three bytes. -/

namespace Sys2Proof.Machine

/-! ## Characters (R140, R144) -/

@[simp] theorem b64Value_b64Char (v : BitVec 6) : b64Value (b64Char v) = some v := by
  revert v; decide

theorem b64Char_of_b64Value {c : Byte} {v : BitVec 6} (h : b64Value c = some v) : b64Char v = c := by
  have all : ∀ c : Byte, ∀ v ∈ b64Value c, b64Char v = c := by decide +kernel
  exact all c v h

@[simp] theorem b64Value_padChar : b64Value padChar = none := by decide

@[simp] theorem b64Char_ne_padChar (v : BitVec 6) : b64Char v ≠ padChar := by
  revert v; decide

/-- No character of a text is a marker byte or the terminator (30_encoding.md R89). -/
theorem b64Value_of_symbol {c : Byte} (h : c ∈ ([0x06, 0x09, 0x04, 0x14, 0x0A] : List Byte)) : b64Value c = none := by
  have all : ∀ c ∈ ([0x06, 0x09, 0x04, 0x14, 0x0A] : List Byte), b64Value c = none := by decide
  exact all c h

/-! ## Bits (R142, R145) -/

/-- Three bytes are the 24 bits of their four values. -/
theorem bytes_of_sextets (b0 b1 b2 : Byte) :
    (sextets b0 b1 b2).1 ++ (sextets b0 b1 b2).2.1 ++ (sextets b0 b1 b2).2.2.1 ++ (sextets b0 b1 b2).2.2.2 =
      (b0 ++ b1 ++ b2 : BitVec 24) := by
  apply BitVec.eq_of_getLsbD_eq
  intro i hi
  simp only [sextets, BitVec.getLsbD_append, BitVec.getLsbD_extractLsb']
  interval_cases i <;> simp

/-- The values of the bytes of 24 bits are the values the bits were made of. -/
theorem sextets_of_bits (v0 v1 v2 v3 : BitVec 6) (v : BitVec 24) (h : v = v0 ++ v1 ++ v2 ++ v3) :
    sextets (v.extractLsb' 16 8) (v.extractLsb' 8 8) (v.extractLsb' 0 8) = (v0, v1, v2, v3) := by
  subst h
  simp only [sextets, Prod.mk.injEq]
  refine ⟨?_, ?_, ?_, ?_⟩ <;>
  · apply BitVec.eq_of_getLsbD_eq
    intro i hi
    simp only [BitVec.getLsbD_append, BitVec.getLsbD_extractLsb']
    interval_cases i <;> simp

/-- A full group decodes to the three bytes it was made of. -/
theorem b64Full_encoded (b0 b1 b2 : Byte) :
    b64Full (b64Char (sextets b0 b1 b2).1) (b64Char (sextets b0 b1 b2).2.1) (b64Char (sextets b0 b1 b2).2.2.1)
      (b64Char (sextets b0 b1 b2).2.2.2) = some [b0, b1, b2] := by
  simp only [b64Full, b64Value_b64Char, bytes_of_sextets, Option.some.injEq, List.cons.injEq, and_true]
  refine ⟨?_, ?_, ?_⟩ <;>
  · apply BitVec.eq_of_getLsbD_eq
    intro i hi
    simp only [BitVec.getLsbD_append, BitVec.getLsbD_extractLsb']
    interval_cases i <;> simp

/-- Only the encoding of three bytes decodes as a full group. -/
theorem b64Full_inv {c0 c1 c2 c3 : Byte} {bs : List Byte} (h : b64Full c0 c1 c2 c3 = some bs) :
    ∃ b0 b1 b2, bs = [b0, b1, b2] ∧ c0 = b64Char (sextets b0 b1 b2).1 ∧ c1 = b64Char (sextets b0 b1 b2).2.1 ∧
      c2 = b64Char (sextets b0 b1 b2).2.2.1 ∧ c3 = b64Char (sextets b0 b1 b2).2.2.2 := by
  unfold b64Full at h
  split at h
  · rename_i v0 v1 v2 v3 h0 h1 h2 h3
    simp only [Option.some.injEq] at h
    refine ⟨_, _, _, h.symm, ?_⟩
    rw [sextets_of_bits v0 v1 v2 v3 _ rfl]
    exact ⟨(b64Char_of_b64Value h0).symm, (b64Char_of_b64Value h1).symm, (b64Char_of_b64Value h2).symm,
      (b64Char_of_b64Value h3).symm⟩
  · cases h

/-- Two bytes and one padding character. -/
theorem b64Pad1_encoded (b0 b1 : Byte) :
    b64Pad1 (b64Char (sextets b0 b1 0).1) (b64Char (sextets b0 b1 0).2.1) (b64Char (sextets b0 b1 0).2.2.1) =
      some [b0, b1] := by
  simp only [b64Pad1, b64Value_b64Char]
  rw [if_pos]
  · simp only [Option.some.injEq, List.cons.injEq, and_true]
    refine ⟨?_, ?_⟩ <;>
    · apply BitVec.eq_of_getLsbD_eq
      intro i hi
      simp only [sextets, BitVec.getLsbD_append, BitVec.getLsbD_extractLsb']
      interval_cases i <;> simp
  · apply BitVec.eq_of_getLsbD_eq
    intro i hi
    simp only [sextets, BitVec.getLsbD_append, BitVec.getLsbD_extractLsb']
    interval_cases i <;> simp

theorem b64Pad1_inv {c0 c1 c2 : Byte} {bs : List Byte} (h : b64Pad1 c0 c1 c2 = some bs) :
    ∃ b0 b1, bs = [b0, b1] ∧ c0 = b64Char (sextets b0 b1 0).1 ∧ c1 = b64Char (sextets b0 b1 0).2.1 ∧
      c2 = b64Char (sextets b0 b1 0).2.2.1 := by
  unfold b64Pad1 at h
  split at h
  · rename_i v0 v1 v2 h0 h1 h2
    simp only at h
    split at h
    · rename_i hz
      simp only [Option.some.injEq] at h
      refine ⟨_, _, h.symm, ?_⟩
      rw [← b64Char_of_b64Value h0, ← b64Char_of_b64Value h1, ← b64Char_of_b64Value h2]
      have zero := fun i => congrArg (fun w : BitVec 2 => w.getLsbD i) hz
      have z0 := zero 0
      have z1 := zero 1
      simp only [BitVec.getLsbD_append, BitVec.getLsbD_extractLsb'] at z0 z1
      simp at z0 z1
      refine ⟨?_, ?_, ?_⟩ <;> congr 1 <;>
      · apply BitVec.eq_of_getLsbD_eq
        intro i hi
        simp only [sextets, BitVec.getLsbD_append, BitVec.getLsbD_extractLsb']
        interval_cases i <;> simp [z0, z1]
    · cases h
  · cases h

/-- One byte and two padding characters. -/
theorem b64Pad2_encoded (b0 : Byte) :
    b64Pad2 (b64Char (sextets b0 0 0).1) (b64Char (sextets b0 0 0).2.1) = some [b0] := by
  simp only [b64Pad2, b64Value_b64Char]
  rw [if_pos]
  · simp only [Option.some.injEq, List.cons.injEq, and_true]
    apply BitVec.eq_of_getLsbD_eq
    intro i hi
    simp only [sextets, BitVec.getLsbD_append, BitVec.getLsbD_extractLsb']
    interval_cases i <;> simp
  · apply BitVec.eq_of_getLsbD_eq
    intro i hi
    simp only [sextets, BitVec.getLsbD_append, BitVec.getLsbD_extractLsb']
    interval_cases i <;> simp

theorem b64Pad2_inv {c0 c1 : Byte} {bs : List Byte} (h : b64Pad2 c0 c1 = some bs) :
    ∃ b0, bs = [b0] ∧ c0 = b64Char (sextets b0 0 0).1 ∧ c1 = b64Char (sextets b0 0 0).2.1 := by
  unfold b64Pad2 at h
  split at h
  · rename_i v0 v1 h0 h1
    simp only at h
    split at h
    · rename_i hz
      simp only [Option.some.injEq] at h
      refine ⟨_, h.symm, ?_⟩
      rw [← b64Char_of_b64Value h0, ← b64Char_of_b64Value h1]
      have zero := fun i => congrArg (fun w : BitVec 4 => w.getLsbD i) hz
      have z0 := zero 0
      have z1 := zero 1
      have z2 := zero 2
      have z3 := zero 3
      simp only [BitVec.getLsbD_append, BitVec.getLsbD_extractLsb'] at z0 z1 z2 z3
      simp at z0 z1 z2 z3
      refine ⟨?_, ?_⟩ <;> congr 1 <;>
      · apply BitVec.eq_of_getLsbD_eq
        intro i hi
        simp only [sextets, BitVec.getLsbD_append, BitVec.getLsbD_extractLsb']
        interval_cases i <;> simp [z0, z1, z2, z3]
    · cases h
  · cases h

/-! ## Texts (R142, R145) -/

/-- A group that is not the last one decodes as a full group, and the rest by itself. -/
theorem b64dec_cons (c0 c1 c2 c3 : Byte) {rest : List Byte} (h : rest ≠ []) :
    b64dec (c0 :: c1 :: c2 :: c3 :: rest) =
      match b64Full c0 c1 c2 c3, b64dec rest with
      | some bs, some out => some (bs ++ out)
      | _, _ => none := by
  cases rest with
  | nil => exact absurd rfl h
  | cons _ _ => rfl

/-- The encoder's full groups are concatenated. -/
theorem b64enc_cons (b0 b1 b2 : Byte) (rest : List Byte) :
    b64enc (b0 :: b1 :: b2 :: rest) =
      b64Char (sextets b0 b1 b2).1 :: b64Char (sextets b0 b1 b2).2.1 :: b64Char (sextets b0 b1 b2).2.2.1 ::
        b64Char (sextets b0 b1 b2).2.2.2 :: b64enc rest := by
  rw [b64enc]

theorem b64enc_eq_nil {s : List Byte} (h : b64enc s = []) : s = [] := by
  match s with
  | [] => rfl
  | [_] => simp [b64enc] at h
  | [_, _] => simp [b64enc] at h
  | _ :: _ :: _ :: _ => simp [b64enc_cons] at h

/-- The last group, by its padding. -/
theorem b64Last_full (c0 c1 c2 c3 : Byte) (h2 : c2 ≠ padChar) (h3 : c3 ≠ padChar) :
    b64Last c0 c1 c2 c3 = b64Full c0 c1 c2 c3 := by simp [b64Last, h2, h3]

theorem b64Last_pad1 (c0 c1 c2 : Byte) (h2 : c2 ≠ padChar) : b64Last c0 c1 c2 padChar = b64Pad1 c0 c1 c2 := by
  simp [b64Last, h2]

theorem b64Last_pad2 (c0 c1 : Byte) : b64Last c0 c1 padChar padChar = b64Pad2 c0 c1 := by simp [b64Last]

/-- Everything the last group of an accepted text can be. -/
theorem b64Last_cases {c0 c1 c2 c3 : Byte} {bs : List Byte} (h : b64Last c0 c1 c2 c3 = some bs) :
    (c2 = padChar ∧ c3 = padChar ∧ b64Pad2 c0 c1 = some bs) ∨
    (c2 ≠ padChar ∧ c3 = padChar ∧ b64Pad1 c0 c1 c2 = some bs) ∨
    (c2 ≠ padChar ∧ c3 ≠ padChar ∧ b64Full c0 c1 c2 c3 = some bs) := by
  unfold b64Last at h
  split at h
  · split at h
    · exact .inl ⟨‹_›, ‹_›, h⟩
    · cases h
  · split at h
    · exact .inr (.inl ⟨‹_›, ‹_›, h⟩)
    · exact .inr (.inr ⟨‹_›, ‹_›, h⟩)

end Sys2Proof.Machine
end

