-- ==== Sys2Proof/Laws/Crc.lean ====
section
/-! SUPPORT. The laws of the checksum's steps (41_crc.md R131): linear over exclusive or, and without loss. -/

namespace Sys2Proof.Machine

@[simp] theorem crcFrom_nil (c : Half) : crcFrom c [] = c := rfl
@[simp] theorem crcFrom_cons (c : Half) (b : Byte) (bs : List Byte) :
    crcFrom c (b :: bs) = crcFrom (crcStep c b) bs := rfl

@[simp] theorem crcShifts_zero (c : Half) : crcShifts 0 c = c := rfl
theorem crcShifts_succ (n : Nat) (c : Half) : crcShifts (n + 1) c = crcShifts n (crcShift c) := rfl

/-- One shift is linear. -/
theorem crcShift_xor (a b : Half) : crcShift (a ^^^ b) = crcShift a ^^^ crcShift b := by
  have shl : (a ^^^ b) <<< 1 = a <<< 1 ^^^ b <<< 1 := BitVec.shiftLeft_xor_distrib a b 1
  have assoc := @BitVec.xor_assoc 16
  have comm := @BitVec.xor_comm 16
  unfold crcShift
  rw [BitVec.getLsbD_xor, shl]
  cases a.getLsbD 15 <;> cases b.getLsbD 15 <;> simp only [Bool.xor_false, Bool.xor_true, Bool.not_false, Bool.not_true,
    if_true, Bool.false_eq_true, if_false]
  · rw [assoc]
  · rw [assoc, assoc, comm (b <<< 1) crcPoly]
  · rw [show a <<< 1 ^^^ crcPoly ^^^ (b <<< 1 ^^^ crcPoly) = a <<< 1 ^^^ b <<< 1 ^^^ (crcPoly ^^^ crcPoly) by
      rw [assoc, assoc, ← assoc crcPoly, comm crcPoly (b <<< 1), assoc], BitVec.xor_self, BitVec.xor_zero]

/-- One shift loses nothing: only the zero remainder becomes zero. -/
theorem crcShift_eq_zero {c : Half} (h : crcShift c = 0) : c = 0 := by
  unfold crcShift at h
  split at h
  · have h0 := congrArg (fun v : Half => v.getLsbD 0) h
    simp [crcPoly] at h0
  · rename_i h15
    apply BitVec.eq_of_getLsbD_eq
    intro i hi
    rcases Nat.lt_or_ge i 15 with hlt | hge
    · have hb := congrArg (fun v : Half => v.getLsbD (i + 1)) h
      simpa [Nat.succ_lt_succ hlt, BitVec.getLsbD_eq_getElem hi] using hb
    · have : i = 15 := by omega
      subst this
      simpa using h15

theorem crcShifts_xor (n : Nat) (a b : Half) : crcShifts n (a ^^^ b) = crcShifts n a ^^^ crcShifts n b := by
  induction n generalizing a b with
  | zero => rfl
  | succ n ih => rw [crcShifts_succ, crcShift_xor, ih]; rfl

theorem crcShifts_eq_zero {n : Nat} {c : Half} (h : crcShifts n c = 0) : c = 0 := by
  induction n generalizing c with
  | zero => exact h
  | succ n ih => exact crcShift_eq_zero (ih h)

/-- One byte's update is linear in remainder and byte together. -/
theorem crcStep_xor (a b : Half) (x y : Byte) : crcStep (a ^^^ b) (x ^^^ y) = crcStep a x ^^^ crcStep b y := by
  unfold crcStep
  rw [← crcShifts_xor]
  congr 1
  have : ((x ^^^ y) ++ (0 : Byte) : Half) = (x ++ (0 : Byte)) ^^^ (y ++ (0 : Byte)) := by
    apply BitVec.eq_of_getLsbD_eq
    intro i _
    simp only [BitVec.getLsbD_append, BitVec.getLsbD_xor]
    split <;> simp
  rw [this]
  ac_rfl

/-- A zero byte on a remainder that is not zero leaves one that is not zero. -/
theorem crcStep_eq_zero {c : Half} (h : crcStep c 0 = 0) : c = 0 := by
  have := crcShifts_eq_zero (n := 8) h
  simpa using this

end Sys2Proof.Machine
end

