-- ==== Sys2Proof/Laws/Memory.lean ====
section
/-! SUPPORT. The laws of the byte buffers: a write is read back, leaves every other byte alone, and keeps the canonical
form. -/

namespace Sys2Proof.Machine

@[simp] theorem Memory.unspecified_gen (g : Nat) : (Memory.unspecified g).gen = g := rfl
@[simp] theorem Memory.unspecified_cells (g : Nat) : (Memory.unspecified g).cells = [] := rfl
@[simp] theorem Memory.write_gen (m : Memory) (a : Nat) (bs : List Byte) : (m.write a bs).gen = m.gen := rfl

/-! ## Looking a cell up -/

theorem lookup_cellsFrom (bs : List Byte) (a x : Nat) :
    (cellsFrom a bs).lookup x = if a ≤ x then bs[x - a]? else none := by
  induction bs generalizing a with
  | nil => simp [cellsFrom]
  | cons b bs ih =>
    rw [cellsFrom, List.lookup_cons]
    by_cases h : x = a
    · subst h; simp
    · have hb : (x == a) = false := by simpa using h
      rw [hb, ih]
      by_cases hx : a ≤ x
      · have h1 : a + 1 ≤ x := by omega
        have h2 : x - a = (x - (a + 1)) + 1 := by omega
        simp only [hx, h1, if_true, h2, List.getElem?_cons_succ]
      · have h1 : ¬ a + 1 ≤ x := by omega
        simp [hx, h1]

theorem lookup_filter_key (p : Nat → Bool) (l : List Host.Cell) (x : Nat) :
    (l.filter fun c => p c.1).lookup x = if p x then l.lookup x else none := by
  induction l with
  | nil => simp
  | cons c l ih =>
    obtain ⟨k, v⟩ := c
    rw [List.filter_cons, List.lookup_cons]
    by_cases hk : x = k
    · subst hk
      by_cases hp : p x = true
      · simp [hp]
      · simp [hp, ih]
    · have hb : (x == k) = false := by simpa using hk
      by_cases hp : p k = true
      · simp [hp, List.lookup_cons, hb, ih]
      · simp [hp, ih, hb]

/-- A write at `a`: offsets `a .. a + len(bs) - 1` hold the bytes written, every other offset what it held. -/
theorem Memory.lookup_write (m : Memory) (a x : Nat) (bs : List Byte) :
    (m.write a bs).lookup x = if a ≤ x ∧ x < a + bs.length then bs[x - a]? else m.lookup x := by
  have key : ∀ l : List Host.Cell, (l.filter (fun c => decide (c.1 < a))).lookup x = if x < a then l.lookup x else none := by
    intro l; simpa using lookup_filter_key (fun k => decide (k < a)) l x
  have key2 : ∀ l : List Host.Cell,
      (l.filter (fun c => decide (a + bs.length ≤ c.1))).lookup x = if a + bs.length ≤ x then l.lookup x else none := by
    intro l; simpa using lookup_filter_key (fun k => decide (a + bs.length ≤ k)) l x
  simp only [Memory.lookup, Memory.write, List.lookup_append, key, key2, lookup_cellsFrom]
  by_cases h1 : x < a
  · have : ¬ a ≤ x := by omega
    have h3 : ¬ a + bs.length ≤ x := by omega
    simp [h1, this, h3]
  · have h2 : a ≤ x := by omega
    by_cases h3 : x < a + bs.length
    · have : x - a < bs.length := by omega
      simp [h1, h2, h3, this]
    · have h4 : a + bs.length ≤ x := by omega
      have h5 : bs[x - a]? = none := by simp; omega
      simp [h1, h2, h3, h4, h5]

/-- Read after write, inside. -/
theorem Memory.byte_write_inside (m : Memory) (a i : Nat) (bs : List Byte) (h : i < bs.length) :
    (m.write a bs).byte (a + i) = bs[i] := by
  simp [Memory.byte, Memory.lookup_write, h]

/-- Read after write, outside: every other byte is as it was. -/
theorem Memory.byte_write_outside (m : Memory) (a x : Nat) (bs : List Byte) (h : x < a ∨ a + bs.length ≤ x) :
    (m.write a bs).byte x = m.byte x := by
  have : ¬ (a ≤ x ∧ x < a + bs.length) := by omega
  simp [Memory.byte, Memory.lookup_write, this]

@[simp] theorem Memory.write_nil_byte (m : Memory) (a x : Nat) : (m.write a []).byte x = m.byte x :=
  m.byte_write_outside a x [] (by simp; omega)

/-! ## Reading a range -/

@[simp] theorem Memory.read_length (m : Memory) (a n : Nat) : (m.read a n).length = n := by
  induction n generalizing a with
  | zero => rfl
  | succ n ih => simp [Memory.read, ih]

theorem Memory.read_getElem? (m : Memory) (a n i : Nat) :
    (m.read a n)[i]? = if i < n then some (m.byte (a + i)) else none := by
  induction n generalizing a i with
  | zero => simp [Memory.read]
  | succ n ih =>
    cases i with
    | zero => simp [Memory.read]
    | succ i =>
      simp only [Memory.read, List.getElem?_cons_succ, ih]
      have : a + 1 + i = a + (i + 1) := by omega
      simp [this]

/-- Two buffers with the same bytes in a range read the same there. -/
theorem Memory.read_congr (m k : Memory) (a n : Nat) (h : ∀ i, i < n → m.byte (a + i) = k.byte (a + i)) :
    m.read a n = k.read a n := by
  apply List.ext_getElem?
  intro i
  simp only [Memory.read_getElem?]
  split
  · rw [h i ‹_›]
  · rfl

/-- What a write stored is read back whole. -/
theorem Memory.read_write (m : Memory) (a : Nat) (bs : List Byte) : (m.write a bs).read a bs.length = bs := by
  apply List.ext_getElem?
  intro i
  rw [Memory.read_getElem?]
  by_cases h : i < bs.length
  · rw [if_pos h, Memory.byte_write_inside m a i bs h, List.getElem?_eq_getElem h]
  · rw [if_neg h, List.getElem?_eq_none (by omega)]

/-- A write elsewhere does not change what a range reads. -/
theorem Memory.read_write_disjoint (m : Memory) (a : Nat) (bs : List Byte) (x n : Nat)
    (h : x + n ≤ a ∨ a + bs.length ≤ x) : (m.write a bs).read x n = m.read x n :=
  Memory.read_congr _ _ _ _ fun i hi => m.byte_write_outside a (x + i) bs (by omega)

/-- Appending a byte to what a buffer holds from offset 0. -/
theorem Memory.read_write_append (m : Memory) (n : Nat) (b : Byte) :
    (m.write n [b]).read 0 (n + 1) = m.read 0 n ++ [b] := by
  apply List.ext_getElem?
  intro i
  rw [Memory.read_getElem?, List.getElem?_append, Memory.read_getElem?]
  rcases Nat.lt_trichotomy i n with h | h | h
  · rw [if_pos (by omega), if_pos (by simpa using h), if_pos h, m.byte_write_outside n (0 + i) [b] (by omega)]
  · subst h
    have := m.byte_write_inside i 0 [b] (by simp)
    simpa using this
  · rw [if_neg (by omega), if_neg (by simp; omega)]
    simp; omega

/-! ## The canonical form -/

theorem cellsFrom_mem (bs : List Byte) (a : Nat) (c : Host.Cell) (h : c ∈ cellsFrom a bs) :
    a ≤ c.1 ∧ c.1 < a + bs.length := by
  induction bs generalizing a with
  | nil => simp [cellsFrom] at h
  | cons b bs ih =>
    rcases List.mem_cons.1 h with h | h
    · subst h; simp
    · have := ih (a + 1) h
      simp only [List.length_cons]; omega

theorem cellsFrom_wf (bs : List Byte) (a : Nat) : (cellsFrom a bs).Pairwise fun x y => x.1 < y.1 := by
  induction bs generalizing a with
  | nil => exact List.Pairwise.nil
  | cons b bs ih =>
    refine List.Pairwise.cons (fun c hc => ?_) (ih (a + 1))
    have := cellsFrom_mem bs (a + 1) c hc
    show a < c.1
    omega

theorem Memory.unspecified_wf (g : Nat) : (Memory.unspecified g).wf := List.Pairwise.nil

/-- Every write keeps the canonical form. -/
theorem Memory.write_wf (m : Memory) (a : Nat) (bs : List Byte) (h : m.wf) : (m.write a bs).wf := by
  show List.Pairwise _ (_ ++ _ ++ _)
  rw [List.pairwise_append, List.pairwise_append]
  refine ⟨⟨h.filter _, cellsFrom_wf bs a, fun x hx y hy => ?_⟩, h.filter _, fun x hx y hy => ?_⟩
  · have hxa : x.1 < a := by simpa using (List.mem_filter.1 hx).2
    have := cellsFrom_mem bs a y hy
    omega
  · have hya : a + bs.length ≤ y.1 := by simpa using (List.mem_filter.1 hy).2
    rcases List.mem_append.1 hx with hx | hx
    · have hxa : x.1 < a := by simpa using (List.mem_filter.1 hx).2
      omega
    · have := cellsFrom_mem bs a x hx
      omega

/-! ## Capacities -/

@[simp] theorem fits_unbounded (n : Nat) : fits n none = true := rfl
@[simp] theorem Capacities_pbufMax_unbounded : Config.unbounded.pbufMax = none := rfl

/-- `PBUF_MAX` is at most 65535, as every value of `PLEN` (R7). -/
theorem Capacities_pbufMax_le (c : Capacities) (n : Nat) (h : c.pbufMax = some n) : n ≤ 65535 := by
  simp only [Capacities.pbufMax, Option.map_eq_some_iff] at h
  obtain ⟨k, -, rfl⟩ := h
  omega

@[simp] theorem fits_some (n c : Nat) : fits n (some c) = decide (n ≤ c) := rfl

theorem fits_mono {n k : Nat} {c : Option Nat} (h : fits n c = true) (hk : k ≤ n) : fits k c = true := by
  cases c with
  | none => rfl
  | some c => simp only [fits_some, decide_eq_true_eq] at h ⊢; omega

end Sys2Proof.Machine
end

