-- ==== Sys2Proof/Laws/State.lean ====
section
/-! SUPPORT. One lemma per field per named update of State, true by rfl and tagged simp, so that no proof unfolds an
update. The anonymous updates of the other meanings reduce by themselves. -/

namespace Sys2Proof.Machine

/-! ## `raiseFault` -/

@[simp] theorem raiseFault_cmd (c : FaultCode) (i : Half) (s : State) : (raiseFault c i s).cmd = s.cmd := rfl
@[simp] theorem raiseFault_status (c : FaultCode) (i : Half) (s : State) : (raiseFault c i s).status = raiseErrf s.status := rfl
@[simp] theorem raiseFault_err (c : FaultCode) (i : Half) (s : State) : (raiseFault c i s).err = c.code := rfl
@[simp] theorem raiseFault_errinfo (c : FaultCode) (i : Half) (s : State) : (raiseFault c i s).errinfo = i := rfl
@[simp] theorem raiseFault_res (c : FaultCode) (i : Half) (s : State) : (raiseFault c i s).res = s.res := rfl
@[simp] theorem raiseFault_crc (c : FaultCode) (i : Half) (s : State) : (raiseFault c i s).crc = s.crc := rfl
@[simp] theorem raiseFault_data (c : FaultCode) (i : Half) (s : State) : (raiseFault c i s).data = s.data := rfl
@[simp] theorem raiseFault_linelen (c : FaultCode) (i : Half) (s : State) : (raiseFault c i s).linelen = s.linelen := rfl
@[simp] theorem raiseFault_mtu (c : FaultCode) (i : Half) (s : State) : (raiseFault c i s).mtu = s.mtu := rfl
@[simp] theorem raiseFault_timeout (c : FaultCode) (i : Half) (s : State) : (raiseFault c i s).timeout = s.timeout := rfl
@[simp] theorem raiseFault_plen (c : FaultCode) (i : Half) (s : State) : (raiseFault c i s).plen = s.plen := rfl
@[simp] theorem raiseFault_tlen (c : FaultCode) (i : Half) (s : State) : (raiseFault c i s).tlen = s.tlen := rfl
@[simp] theorem raiseFault_wlen (c : FaultCode) (i : Half) (s : State) : (raiseFault c i s).wlen = s.wlen := rfl
@[simp] theorem raiseFault_rlen (c : FaultCode) (i : Half) (s : State) : (raiseFault c i s).rlen = s.rlen := rfl
@[simp] theorem raiseFault_rplen (c : FaultCode) (i : Half) (s : State) : (raiseFault c i s).rplen = s.rplen := rfl
@[simp] theorem raiseFault_txhOp (c : FaultCode) (i : Half) (s : State) : (raiseFault c i s).txhOp = s.txhOp := rfl
@[simp] theorem raiseFault_txhLen (c : FaultCode) (i : Half) (s : State) : (raiseFault c i s).txhLen = s.txhLen := rfl
@[simp] theorem raiseFault_txhGroup (c : FaultCode) (i : Half) (s : State) : (raiseFault c i s).txhGroup = s.txhGroup := rfl
@[simp] theorem raiseFault_txhSeq (c : FaultCode) (i : Half) (s : State) : (raiseFault c i s).txhSeq = s.txhSeq := rfl
@[simp] theorem raiseFault_txhCmd (c : FaultCode) (i : Half) (s : State) : (raiseFault c i s).txhCmd = s.txhCmd := rfl
@[simp] theorem raiseFault_rxhOp (c : FaultCode) (i : Half) (s : State) : (raiseFault c i s).rxhOp = s.rxhOp := rfl
@[simp] theorem raiseFault_rxhFlags (c : FaultCode) (i : Half) (s : State) : (raiseFault c i s).rxhFlags = s.rxhFlags := rfl
@[simp] theorem raiseFault_rxhLen (c : FaultCode) (i : Half) (s : State) : (raiseFault c i s).rxhLen = s.rxhLen := rfl
@[simp] theorem raiseFault_rxhGroup (c : FaultCode) (i : Half) (s : State) : (raiseFault c i s).rxhGroup = s.rxhGroup := rfl
@[simp] theorem raiseFault_rxhSeq (c : FaultCode) (i : Half) (s : State) : (raiseFault c i s).rxhSeq = s.rxhSeq := rfl
@[simp] theorem raiseFault_rxhCmd (c : FaultCode) (i : Half) (s : State) : (raiseFault c i s).rxhCmd = s.rxhCmd := rfl
@[simp] theorem raiseFault_seq (c : FaultCode) (i : Half) (s : State) : (raiseFault c i s).seq = s.seq := rfl
@[simp] theorem raiseFault_xstate (c : FaultCode) (i : Half) (s : State) : (raiseFault c i s).xstate = .fault := rfl
@[simp] theorem raiseFault_widx (c : FaultCode) (i : Half) (s : State) : (raiseFault c i s).widx = s.widx := rfl
@[simp] theorem raiseFault_tmr (c : FaultCode) (i : Half) (s : State) : (raiseFault c i s).tmr = s.tmr := rfl
@[simp] theorem raiseFault_portOpen (c : FaultCode) (i : Half) (s : State) : (raiseFault c i s).portOpen = false := rfl
@[simp] theorem raiseFault_pbuf (c : FaultCode) (i : Half) (s : State) : (raiseFault c i s).pbuf = s.pbuf := rfl
@[simp] theorem raiseFault_tbuf (c : FaultCode) (i : Half) (s : State) : (raiseFault c i s).tbuf = s.tbuf := rfl
@[simp] theorem raiseFault_wbuf (c : FaultCode) (i : Half) (s : State) : (raiseFault c i s).wbuf = s.wbuf := rfl
@[simp] theorem raiseFault_rbuf (c : FaultCode) (i : Half) (s : State) : (raiseFault c i s).rbuf = s.rbuf := rfl
@[simp] theorem raiseFault_txout (c : FaultCode) (i : Half) (s : State) : (raiseFault c i s).txout = s.txout := rfl
@[simp] theorem raiseFault_rxfifo (c : FaultCode) (i : Half) (s : State) : (raiseFault c i s).rxfifo = s.rxfifo := rfl
@[simp] theorem raiseFault_caps (c : FaultCode) (i : Half) (s : State) : (raiseFault c i s).caps = s.caps := rfl
@[simp] theorem raiseFault_draws (c : FaultCode) (i : Half) (s : State) : (raiseFault c i s).draws = s.draws := rfl
@[simp] theorem raiseFault_program (c : FaultCode) (i : Half) (s : State) : (raiseFault c i s).program = s.program := rfl
@[simp] theorem raiseFault_pc (c : FaultCode) (i : Half) (s : State) : (raiseFault c i s).pc = s.pc := rfl
@[simp] theorem raiseFault_stopped (c : FaultCode) (i : Half) (s : State) : (raiseFault c i s).stopped = s.stopped := rfl
@[simp] theorem raiseFault_reads (c : FaultCode) (i : Half) (s : State) : (raiseFault c i s).reads = s.reads := rfl
@[simp] theorem raiseFault_env (c : FaultCode) (i : Half) (s : State) : (raiseFault c i s).env = s.env := rfl

/-! ## `scrambleText` -/

@[simp] theorem scrambleText_cmd (s : State) : (scrambleText s).cmd = s.cmd := rfl
@[simp] theorem scrambleText_status (s : State) : (scrambleText s).status = s.status := rfl
@[simp] theorem scrambleText_err (s : State) : (scrambleText s).err = s.err := rfl
@[simp] theorem scrambleText_errinfo (s : State) : (scrambleText s).errinfo = s.errinfo := rfl
@[simp] theorem scrambleText_res (s : State) : (scrambleText s).res = s.res := rfl
@[simp] theorem scrambleText_crc (s : State) : (scrambleText s).crc = s.crc := rfl
@[simp] theorem scrambleText_data (s : State) : (scrambleText s).data = s.data := rfl
@[simp] theorem scrambleText_linelen (s : State) : (scrambleText s).linelen = s.linelen := rfl
@[simp] theorem scrambleText_mtu (s : State) : (scrambleText s).mtu = s.mtu := rfl
@[simp] theorem scrambleText_timeout (s : State) : (scrambleText s).timeout = s.timeout := rfl
@[simp] theorem scrambleText_plen (s : State) : (scrambleText s).plen = s.plen := rfl
@[simp] theorem scrambleText_tlen (s : State) : (scrambleText s).tlen = Config.freeValue 32 (s.draws + 1) := rfl
@[simp] theorem scrambleText_wlen (s : State) : (scrambleText s).wlen = s.wlen := rfl
@[simp] theorem scrambleText_rlen (s : State) : (scrambleText s).rlen = s.rlen := rfl
@[simp] theorem scrambleText_rplen (s : State) : (scrambleText s).rplen = s.rplen := rfl
@[simp] theorem scrambleText_txhOp (s : State) : (scrambleText s).txhOp = s.txhOp := rfl
@[simp] theorem scrambleText_txhLen (s : State) : (scrambleText s).txhLen = s.txhLen := rfl
@[simp] theorem scrambleText_txhGroup (s : State) : (scrambleText s).txhGroup = s.txhGroup := rfl
@[simp] theorem scrambleText_txhSeq (s : State) : (scrambleText s).txhSeq = s.txhSeq := rfl
@[simp] theorem scrambleText_txhCmd (s : State) : (scrambleText s).txhCmd = s.txhCmd := rfl
@[simp] theorem scrambleText_rxhOp (s : State) : (scrambleText s).rxhOp = s.rxhOp := rfl
@[simp] theorem scrambleText_rxhFlags (s : State) : (scrambleText s).rxhFlags = s.rxhFlags := rfl
@[simp] theorem scrambleText_rxhLen (s : State) : (scrambleText s).rxhLen = s.rxhLen := rfl
@[simp] theorem scrambleText_rxhGroup (s : State) : (scrambleText s).rxhGroup = s.rxhGroup := rfl
@[simp] theorem scrambleText_rxhSeq (s : State) : (scrambleText s).rxhSeq = s.rxhSeq := rfl
@[simp] theorem scrambleText_rxhCmd (s : State) : (scrambleText s).rxhCmd = s.rxhCmd := rfl
@[simp] theorem scrambleText_seq (s : State) : (scrambleText s).seq = s.seq := rfl
@[simp] theorem scrambleText_xstate (s : State) : (scrambleText s).xstate = s.xstate := rfl
@[simp] theorem scrambleText_widx (s : State) : (scrambleText s).widx = s.widx := rfl
@[simp] theorem scrambleText_tmr (s : State) : (scrambleText s).tmr = s.tmr := rfl
@[simp] theorem scrambleText_portOpen (s : State) : (scrambleText s).portOpen = s.portOpen := rfl
@[simp] theorem scrambleText_pbuf (s : State) : (scrambleText s).pbuf = s.pbuf := rfl
@[simp] theorem scrambleText_tbuf (s : State) : (scrambleText s).tbuf = .unspecified s.draws := rfl
@[simp] theorem scrambleText_wbuf (s : State) : (scrambleText s).wbuf = s.wbuf := rfl
@[simp] theorem scrambleText_rbuf (s : State) : (scrambleText s).rbuf = s.rbuf := rfl
@[simp] theorem scrambleText_txout (s : State) : (scrambleText s).txout = s.txout := rfl
@[simp] theorem scrambleText_rxfifo (s : State) : (scrambleText s).rxfifo = s.rxfifo := rfl
@[simp] theorem scrambleText_caps (s : State) : (scrambleText s).caps = s.caps := rfl
@[simp] theorem scrambleText_draws (s : State) : (scrambleText s).draws = s.draws + 2 := rfl
@[simp] theorem scrambleText_program (s : State) : (scrambleText s).program = s.program := rfl
@[simp] theorem scrambleText_pc (s : State) : (scrambleText s).pc = s.pc := rfl
@[simp] theorem scrambleText_stopped (s : State) : (scrambleText s).stopped = s.stopped := rfl
@[simp] theorem scrambleText_reads (s : State) : (scrambleText s).reads = s.reads := rfl
@[simp] theorem scrambleText_env (s : State) : (scrambleText s).env = s.env := rfl

/-! ## `scrambleRaw` -/

@[simp] theorem scrambleRaw_cmd (s : State) : (scrambleRaw s).cmd = s.cmd := rfl
@[simp] theorem scrambleRaw_status (s : State) : (scrambleRaw s).status = s.status := rfl
@[simp] theorem scrambleRaw_err (s : State) : (scrambleRaw s).err = s.err := rfl
@[simp] theorem scrambleRaw_errinfo (s : State) : (scrambleRaw s).errinfo = s.errinfo := rfl
@[simp] theorem scrambleRaw_res (s : State) : (scrambleRaw s).res = s.res := rfl
@[simp] theorem scrambleRaw_crc (s : State) : (scrambleRaw s).crc = s.crc := rfl
@[simp] theorem scrambleRaw_data (s : State) : (scrambleRaw s).data = s.data := rfl
@[simp] theorem scrambleRaw_linelen (s : State) : (scrambleRaw s).linelen = s.linelen := rfl
@[simp] theorem scrambleRaw_mtu (s : State) : (scrambleRaw s).mtu = s.mtu := rfl
@[simp] theorem scrambleRaw_timeout (s : State) : (scrambleRaw s).timeout = s.timeout := rfl
@[simp] theorem scrambleRaw_plen (s : State) : (scrambleRaw s).plen = s.plen := rfl
@[simp] theorem scrambleRaw_tlen (s : State) : (scrambleRaw s).tlen = s.tlen := rfl
@[simp] theorem scrambleRaw_wlen (s : State) : (scrambleRaw s).wlen = s.wlen := rfl
@[simp] theorem scrambleRaw_rlen (s : State) : (scrambleRaw s).rlen = Config.freeValue 32 (s.draws + 1) := rfl
@[simp] theorem scrambleRaw_rplen (s : State) : (scrambleRaw s).rplen = s.rplen := rfl
@[simp] theorem scrambleRaw_txhOp (s : State) : (scrambleRaw s).txhOp = s.txhOp := rfl
@[simp] theorem scrambleRaw_txhLen (s : State) : (scrambleRaw s).txhLen = s.txhLen := rfl
@[simp] theorem scrambleRaw_txhGroup (s : State) : (scrambleRaw s).txhGroup = s.txhGroup := rfl
@[simp] theorem scrambleRaw_txhSeq (s : State) : (scrambleRaw s).txhSeq = s.txhSeq := rfl
@[simp] theorem scrambleRaw_txhCmd (s : State) : (scrambleRaw s).txhCmd = s.txhCmd := rfl
@[simp] theorem scrambleRaw_rxhOp (s : State) : (scrambleRaw s).rxhOp = s.rxhOp := rfl
@[simp] theorem scrambleRaw_rxhFlags (s : State) : (scrambleRaw s).rxhFlags = s.rxhFlags := rfl
@[simp] theorem scrambleRaw_rxhLen (s : State) : (scrambleRaw s).rxhLen = s.rxhLen := rfl
@[simp] theorem scrambleRaw_rxhGroup (s : State) : (scrambleRaw s).rxhGroup = s.rxhGroup := rfl
@[simp] theorem scrambleRaw_rxhSeq (s : State) : (scrambleRaw s).rxhSeq = s.rxhSeq := rfl
@[simp] theorem scrambleRaw_rxhCmd (s : State) : (scrambleRaw s).rxhCmd = s.rxhCmd := rfl
@[simp] theorem scrambleRaw_seq (s : State) : (scrambleRaw s).seq = s.seq := rfl
@[simp] theorem scrambleRaw_xstate (s : State) : (scrambleRaw s).xstate = s.xstate := rfl
@[simp] theorem scrambleRaw_widx (s : State) : (scrambleRaw s).widx = s.widx := rfl
@[simp] theorem scrambleRaw_tmr (s : State) : (scrambleRaw s).tmr = s.tmr := rfl
@[simp] theorem scrambleRaw_portOpen (s : State) : (scrambleRaw s).portOpen = s.portOpen := rfl
@[simp] theorem scrambleRaw_pbuf (s : State) : (scrambleRaw s).pbuf = s.pbuf := rfl
@[simp] theorem scrambleRaw_tbuf (s : State) : (scrambleRaw s).tbuf = s.tbuf := rfl
@[simp] theorem scrambleRaw_wbuf (s : State) : (scrambleRaw s).wbuf = s.wbuf := rfl
@[simp] theorem scrambleRaw_rbuf (s : State) : (scrambleRaw s).rbuf = .unspecified s.draws := rfl
@[simp] theorem scrambleRaw_txout (s : State) : (scrambleRaw s).txout = s.txout := rfl
@[simp] theorem scrambleRaw_rxfifo (s : State) : (scrambleRaw s).rxfifo = s.rxfifo := rfl
@[simp] theorem scrambleRaw_caps (s : State) : (scrambleRaw s).caps = s.caps := rfl
@[simp] theorem scrambleRaw_draws (s : State) : (scrambleRaw s).draws = s.draws + 2 := rfl
@[simp] theorem scrambleRaw_program (s : State) : (scrambleRaw s).program = s.program := rfl
@[simp] theorem scrambleRaw_pc (s : State) : (scrambleRaw s).pc = s.pc := rfl
@[simp] theorem scrambleRaw_stopped (s : State) : (scrambleRaw s).stopped = s.stopped := rfl
@[simp] theorem scrambleRaw_reads (s : State) : (scrambleRaw s).reads = s.reads := rfl
@[simp] theorem scrambleRaw_env (s : State) : (scrambleRaw s).env = s.env := rfl

/-! ## `scrambleHeader` -/

@[simp] theorem scrambleHeader_cmd (s : State) : (scrambleHeader s).cmd = s.cmd := rfl
@[simp] theorem scrambleHeader_status (s : State) : (scrambleHeader s).status = s.status := rfl
@[simp] theorem scrambleHeader_err (s : State) : (scrambleHeader s).err = s.err := rfl
@[simp] theorem scrambleHeader_errinfo (s : State) : (scrambleHeader s).errinfo = s.errinfo := rfl
@[simp] theorem scrambleHeader_res (s : State) : (scrambleHeader s).res = s.res := rfl
@[simp] theorem scrambleHeader_crc (s : State) : (scrambleHeader s).crc = Config.freeValue 16 s.draws := rfl
@[simp] theorem scrambleHeader_data (s : State) : (scrambleHeader s).data = s.data := rfl
@[simp] theorem scrambleHeader_linelen (s : State) : (scrambleHeader s).linelen = s.linelen := rfl
@[simp] theorem scrambleHeader_mtu (s : State) : (scrambleHeader s).mtu = s.mtu := rfl
@[simp] theorem scrambleHeader_timeout (s : State) : (scrambleHeader s).timeout = s.timeout := rfl
@[simp] theorem scrambleHeader_plen (s : State) : (scrambleHeader s).plen = s.plen := rfl
@[simp] theorem scrambleHeader_tlen (s : State) : (scrambleHeader s).tlen = s.tlen := rfl
@[simp] theorem scrambleHeader_wlen (s : State) : (scrambleHeader s).wlen = s.wlen := rfl
@[simp] theorem scrambleHeader_rlen (s : State) : (scrambleHeader s).rlen = s.rlen := rfl
@[simp] theorem scrambleHeader_rplen (s : State) : (scrambleHeader s).rplen = Config.freeValue 16 (s.draws + 7) := rfl
@[simp] theorem scrambleHeader_txhOp (s : State) : (scrambleHeader s).txhOp = s.txhOp := rfl
@[simp] theorem scrambleHeader_txhLen (s : State) : (scrambleHeader s).txhLen = s.txhLen := rfl
@[simp] theorem scrambleHeader_txhGroup (s : State) : (scrambleHeader s).txhGroup = s.txhGroup := rfl
@[simp] theorem scrambleHeader_txhSeq (s : State) : (scrambleHeader s).txhSeq = s.txhSeq := rfl
@[simp] theorem scrambleHeader_txhCmd (s : State) : (scrambleHeader s).txhCmd = s.txhCmd := rfl
@[simp] theorem scrambleHeader_rxhOp (s : State) : (scrambleHeader s).rxhOp = Config.freeValue 8 (s.draws + 1) := rfl
@[simp] theorem scrambleHeader_rxhFlags (s : State) : (scrambleHeader s).rxhFlags = Config.freeValue 8 (s.draws + 2) := rfl
@[simp] theorem scrambleHeader_rxhLen (s : State) : (scrambleHeader s).rxhLen = Config.freeValue 16 (s.draws + 3) := rfl
@[simp] theorem scrambleHeader_rxhGroup (s : State) : (scrambleHeader s).rxhGroup = Config.freeValue 16 (s.draws + 4) := rfl
@[simp] theorem scrambleHeader_rxhSeq (s : State) : (scrambleHeader s).rxhSeq = Config.freeValue 8 (s.draws + 5) := rfl
@[simp] theorem scrambleHeader_rxhCmd (s : State) : (scrambleHeader s).rxhCmd = Config.freeValue 8 (s.draws + 6) := rfl
@[simp] theorem scrambleHeader_seq (s : State) : (scrambleHeader s).seq = s.seq := rfl
@[simp] theorem scrambleHeader_xstate (s : State) : (scrambleHeader s).xstate = s.xstate := rfl
@[simp] theorem scrambleHeader_widx (s : State) : (scrambleHeader s).widx = s.widx := rfl
@[simp] theorem scrambleHeader_tmr (s : State) : (scrambleHeader s).tmr = s.tmr := rfl
@[simp] theorem scrambleHeader_portOpen (s : State) : (scrambleHeader s).portOpen = s.portOpen := rfl
@[simp] theorem scrambleHeader_pbuf (s : State) : (scrambleHeader s).pbuf = s.pbuf := rfl
@[simp] theorem scrambleHeader_tbuf (s : State) : (scrambleHeader s).tbuf = s.tbuf := rfl
@[simp] theorem scrambleHeader_wbuf (s : State) : (scrambleHeader s).wbuf = s.wbuf := rfl
@[simp] theorem scrambleHeader_rbuf (s : State) : (scrambleHeader s).rbuf = s.rbuf := rfl
@[simp] theorem scrambleHeader_txout (s : State) : (scrambleHeader s).txout = s.txout := rfl
@[simp] theorem scrambleHeader_rxfifo (s : State) : (scrambleHeader s).rxfifo = s.rxfifo := rfl
@[simp] theorem scrambleHeader_caps (s : State) : (scrambleHeader s).caps = s.caps := rfl
@[simp] theorem scrambleHeader_draws (s : State) : (scrambleHeader s).draws = s.draws + 8 := rfl
@[simp] theorem scrambleHeader_program (s : State) : (scrambleHeader s).program = s.program := rfl
@[simp] theorem scrambleHeader_pc (s : State) : (scrambleHeader s).pc = s.pc := rfl
@[simp] theorem scrambleHeader_stopped (s : State) : (scrambleHeader s).stopped = s.stopped := rfl
@[simp] theorem scrambleHeader_reads (s : State) : (scrambleHeader s).reads = s.reads := rfl
@[simp] theorem scrambleHeader_env (s : State) : (scrambleHeader s).env = s.env := rfl

/-! ## `scrambleEncoded` -/

@[simp] theorem scrambleEncoded_cmd (s : State) : (scrambleEncoded s).cmd = s.cmd := rfl
@[simp] theorem scrambleEncoded_status (s : State) : (scrambleEncoded s).status = putMtuovf s.status ((Config.freeValue 1 (s.draws + 4)).getLsbD 0) := rfl
@[simp] theorem scrambleEncoded_err (s : State) : (scrambleEncoded s).err = s.err := rfl
@[simp] theorem scrambleEncoded_errinfo (s : State) : (scrambleEncoded s).errinfo = s.errinfo := rfl
@[simp] theorem scrambleEncoded_res (s : State) : (scrambleEncoded s).res = s.res := rfl
@[simp] theorem scrambleEncoded_crc (s : State) : (scrambleEncoded s).crc = Config.freeValue 16 (s.draws + 1) := rfl
@[simp] theorem scrambleEncoded_data (s : State) : (scrambleEncoded s).data = s.data := rfl
@[simp] theorem scrambleEncoded_linelen (s : State) : (scrambleEncoded s).linelen = s.linelen := rfl
@[simp] theorem scrambleEncoded_mtu (s : State) : (scrambleEncoded s).mtu = s.mtu := rfl
@[simp] theorem scrambleEncoded_timeout (s : State) : (scrambleEncoded s).timeout = s.timeout := rfl
@[simp] theorem scrambleEncoded_plen (s : State) : (scrambleEncoded s).plen = s.plen := rfl
@[simp] theorem scrambleEncoded_tlen (s : State) : (scrambleEncoded s).tlen = s.tlen := rfl
@[simp] theorem scrambleEncoded_wlen (s : State) : (scrambleEncoded s).wlen = Config.freeValue 32 (s.draws + 3) := rfl
@[simp] theorem scrambleEncoded_rlen (s : State) : (scrambleEncoded s).rlen = s.rlen := rfl
@[simp] theorem scrambleEncoded_rplen (s : State) : (scrambleEncoded s).rplen = s.rplen := rfl
@[simp] theorem scrambleEncoded_txhOp (s : State) : (scrambleEncoded s).txhOp = s.txhOp := rfl
@[simp] theorem scrambleEncoded_txhLen (s : State) : (scrambleEncoded s).txhLen = Config.freeValue 16 s.draws := rfl
@[simp] theorem scrambleEncoded_txhGroup (s : State) : (scrambleEncoded s).txhGroup = s.txhGroup := rfl
@[simp] theorem scrambleEncoded_txhSeq (s : State) : (scrambleEncoded s).txhSeq = s.txhSeq := rfl
@[simp] theorem scrambleEncoded_txhCmd (s : State) : (scrambleEncoded s).txhCmd = s.txhCmd := rfl
@[simp] theorem scrambleEncoded_rxhOp (s : State) : (scrambleEncoded s).rxhOp = s.rxhOp := rfl
@[simp] theorem scrambleEncoded_rxhFlags (s : State) : (scrambleEncoded s).rxhFlags = s.rxhFlags := rfl
@[simp] theorem scrambleEncoded_rxhLen (s : State) : (scrambleEncoded s).rxhLen = s.rxhLen := rfl
@[simp] theorem scrambleEncoded_rxhGroup (s : State) : (scrambleEncoded s).rxhGroup = s.rxhGroup := rfl
@[simp] theorem scrambleEncoded_rxhSeq (s : State) : (scrambleEncoded s).rxhSeq = s.rxhSeq := rfl
@[simp] theorem scrambleEncoded_rxhCmd (s : State) : (scrambleEncoded s).rxhCmd = s.rxhCmd := rfl
@[simp] theorem scrambleEncoded_seq (s : State) : (scrambleEncoded s).seq = s.seq := rfl
@[simp] theorem scrambleEncoded_xstate (s : State) : (scrambleEncoded s).xstate = s.xstate := rfl
@[simp] theorem scrambleEncoded_widx (s : State) : (scrambleEncoded s).widx = s.widx := rfl
@[simp] theorem scrambleEncoded_tmr (s : State) : (scrambleEncoded s).tmr = s.tmr := rfl
@[simp] theorem scrambleEncoded_portOpen (s : State) : (scrambleEncoded s).portOpen = s.portOpen := rfl
@[simp] theorem scrambleEncoded_pbuf (s : State) : (scrambleEncoded s).pbuf = s.pbuf := rfl
@[simp] theorem scrambleEncoded_tbuf (s : State) : (scrambleEncoded s).tbuf = s.tbuf := rfl
@[simp] theorem scrambleEncoded_wbuf (s : State) : (scrambleEncoded s).wbuf = .unspecified (s.draws + 2) := rfl
@[simp] theorem scrambleEncoded_rbuf (s : State) : (scrambleEncoded s).rbuf = s.rbuf := rfl
@[simp] theorem scrambleEncoded_txout (s : State) : (scrambleEncoded s).txout = s.txout := rfl
@[simp] theorem scrambleEncoded_rxfifo (s : State) : (scrambleEncoded s).rxfifo = s.rxfifo := rfl
@[simp] theorem scrambleEncoded_caps (s : State) : (scrambleEncoded s).caps = s.caps := rfl
@[simp] theorem scrambleEncoded_draws (s : State) : (scrambleEncoded s).draws = s.draws + 5 := rfl
@[simp] theorem scrambleEncoded_program (s : State) : (scrambleEncoded s).program = s.program := rfl
@[simp] theorem scrambleEncoded_pc (s : State) : (scrambleEncoded s).pc = s.pc := rfl
@[simp] theorem scrambleEncoded_stopped (s : State) : (scrambleEncoded s).stopped = s.stopped := rfl
@[simp] theorem scrambleEncoded_reads (s : State) : (scrambleEncoded s).reads = s.reads := rfl
@[simp] theorem scrambleEncoded_env (s : State) : (scrambleEncoded s).env = s.env := rfl

/-! ## `deliverFrame` -/

@[simp] theorem deliverFrame_cmd (f : ParsedFrame) (s : State) : (deliverFrame f s).cmd = s.cmd := rfl
@[simp] theorem deliverFrame_status (f : ParsedFrame) (s : State) : (deliverFrame f s).status = s.status := rfl
@[simp] theorem deliverFrame_err (f : ParsedFrame) (s : State) : (deliverFrame f s).err = s.err := rfl
@[simp] theorem deliverFrame_errinfo (f : ParsedFrame) (s : State) : (deliverFrame f s).errinfo = s.errinfo := rfl
@[simp] theorem deliverFrame_res (f : ParsedFrame) (s : State) : (deliverFrame f s).res = s.res := rfl
@[simp] theorem deliverFrame_crc (f : ParsedFrame) (s : State) : (deliverFrame f s).crc = f.sum := rfl
@[simp] theorem deliverFrame_data (f : ParsedFrame) (s : State) : (deliverFrame f s).data = s.data := rfl
@[simp] theorem deliverFrame_linelen (f : ParsedFrame) (s : State) : (deliverFrame f s).linelen = s.linelen := rfl
@[simp] theorem deliverFrame_mtu (f : ParsedFrame) (s : State) : (deliverFrame f s).mtu = s.mtu := rfl
@[simp] theorem deliverFrame_timeout (f : ParsedFrame) (s : State) : (deliverFrame f s).timeout = s.timeout := rfl
@[simp] theorem deliverFrame_plen (f : ParsedFrame) (s : State) : (deliverFrame f s).plen = s.plen := rfl
@[simp] theorem deliverFrame_tlen (f : ParsedFrame) (s : State) : (deliverFrame f s).tlen = s.tlen := rfl
@[simp] theorem deliverFrame_wlen (f : ParsedFrame) (s : State) : (deliverFrame f s).wlen = s.wlen := rfl
@[simp] theorem deliverFrame_rlen (f : ParsedFrame) (s : State) : (deliverFrame f s).rlen = BitVec.ofNat 32 f.raw.length := rfl
@[simp] theorem deliverFrame_rplen (f : ParsedFrame) (s : State) : (deliverFrame f s).rplen = BitVec.ofNat 16 (f.raw.length - 12) := rfl
@[simp] theorem deliverFrame_txhOp (f : ParsedFrame) (s : State) : (deliverFrame f s).txhOp = s.txhOp := rfl
@[simp] theorem deliverFrame_txhLen (f : ParsedFrame) (s : State) : (deliverFrame f s).txhLen = s.txhLen := rfl
@[simp] theorem deliverFrame_txhGroup (f : ParsedFrame) (s : State) : (deliverFrame f s).txhGroup = s.txhGroup := rfl
@[simp] theorem deliverFrame_txhSeq (f : ParsedFrame) (s : State) : (deliverFrame f s).txhSeq = s.txhSeq := rfl
@[simp] theorem deliverFrame_txhCmd (f : ParsedFrame) (s : State) : (deliverFrame f s).txhCmd = s.txhCmd := rfl
@[simp] theorem deliverFrame_rxhOp (f : ParsedFrame) (s : State) : (deliverFrame f s).rxhOp = f.header.op := rfl
@[simp] theorem deliverFrame_rxhFlags (f : ParsedFrame) (s : State) : (deliverFrame f s).rxhFlags = f.header.flags := rfl
@[simp] theorem deliverFrame_rxhLen (f : ParsedFrame) (s : State) : (deliverFrame f s).rxhLen = f.header.length := rfl
@[simp] theorem deliverFrame_rxhGroup (f : ParsedFrame) (s : State) : (deliverFrame f s).rxhGroup = f.header.group := rfl
@[simp] theorem deliverFrame_rxhSeq (f : ParsedFrame) (s : State) : (deliverFrame f s).rxhSeq = f.header.sequence := rfl
@[simp] theorem deliverFrame_rxhCmd (f : ParsedFrame) (s : State) : (deliverFrame f s).rxhCmd = f.header.commandId := rfl
@[simp] theorem deliverFrame_seq (f : ParsedFrame) (s : State) : (deliverFrame f s).seq = s.seq := rfl
@[simp] theorem deliverFrame_xstate (f : ParsedFrame) (s : State) : (deliverFrame f s).xstate = s.xstate := rfl
@[simp] theorem deliverFrame_widx (f : ParsedFrame) (s : State) : (deliverFrame f s).widx = s.widx := rfl
@[simp] theorem deliverFrame_tmr (f : ParsedFrame) (s : State) : (deliverFrame f s).tmr = s.tmr := rfl
@[simp] theorem deliverFrame_portOpen (f : ParsedFrame) (s : State) : (deliverFrame f s).portOpen = s.portOpen := rfl
@[simp] theorem deliverFrame_pbuf (f : ParsedFrame) (s : State) : (deliverFrame f s).pbuf = s.pbuf := rfl
@[simp] theorem deliverFrame_tbuf (f : ParsedFrame) (s : State) : (deliverFrame f s).tbuf = s.tbuf := rfl
@[simp] theorem deliverFrame_wbuf (f : ParsedFrame) (s : State) : (deliverFrame f s).wbuf = s.wbuf := rfl
@[simp] theorem deliverFrame_rbuf (f : ParsedFrame) (s : State) : (deliverFrame f s).rbuf = s.rbuf.write 0 f.raw := rfl
@[simp] theorem deliverFrame_txout (f : ParsedFrame) (s : State) : (deliverFrame f s).txout = s.txout := rfl
@[simp] theorem deliverFrame_rxfifo (f : ParsedFrame) (s : State) : (deliverFrame f s).rxfifo = s.rxfifo := rfl
@[simp] theorem deliverFrame_caps (f : ParsedFrame) (s : State) : (deliverFrame f s).caps = s.caps := rfl
@[simp] theorem deliverFrame_draws (f : ParsedFrame) (s : State) : (deliverFrame f s).draws = s.draws := rfl
@[simp] theorem deliverFrame_program (f : ParsedFrame) (s : State) : (deliverFrame f s).program = s.program := rfl
@[simp] theorem deliverFrame_pc (f : ParsedFrame) (s : State) : (deliverFrame f s).pc = s.pc := rfl
@[simp] theorem deliverFrame_stopped (f : ParsedFrame) (s : State) : (deliverFrame f s).stopped = s.stopped := rfl
@[simp] theorem deliverFrame_reads (f : ParsedFrame) (s : State) : (deliverFrame f s).reads = s.reads := rfl
@[simp] theorem deliverFrame_env (f : ParsedFrame) (s : State) : (deliverFrame f s).env = s.env := rfl

/-! ## `returnToHost` -/

@[simp] theorem returnToHost_cmd (v : BusValue) (s : State) : (returnToHost v s).cmd = s.cmd := rfl
@[simp] theorem returnToHost_status (v : BusValue) (s : State) : (returnToHost v s).status = s.status := rfl
@[simp] theorem returnToHost_err (v : BusValue) (s : State) : (returnToHost v s).err = s.err := rfl
@[simp] theorem returnToHost_errinfo (v : BusValue) (s : State) : (returnToHost v s).errinfo = s.errinfo := rfl
@[simp] theorem returnToHost_res (v : BusValue) (s : State) : (returnToHost v s).res = s.res := rfl
@[simp] theorem returnToHost_crc (v : BusValue) (s : State) : (returnToHost v s).crc = s.crc := rfl
@[simp] theorem returnToHost_data (v : BusValue) (s : State) : (returnToHost v s).data = s.data := rfl
@[simp] theorem returnToHost_linelen (v : BusValue) (s : State) : (returnToHost v s).linelen = s.linelen := rfl
@[simp] theorem returnToHost_mtu (v : BusValue) (s : State) : (returnToHost v s).mtu = s.mtu := rfl
@[simp] theorem returnToHost_timeout (v : BusValue) (s : State) : (returnToHost v s).timeout = s.timeout := rfl
@[simp] theorem returnToHost_plen (v : BusValue) (s : State) : (returnToHost v s).plen = s.plen := rfl
@[simp] theorem returnToHost_tlen (v : BusValue) (s : State) : (returnToHost v s).tlen = s.tlen := rfl
@[simp] theorem returnToHost_wlen (v : BusValue) (s : State) : (returnToHost v s).wlen = s.wlen := rfl
@[simp] theorem returnToHost_rlen (v : BusValue) (s : State) : (returnToHost v s).rlen = s.rlen := rfl
@[simp] theorem returnToHost_rplen (v : BusValue) (s : State) : (returnToHost v s).rplen = s.rplen := rfl
@[simp] theorem returnToHost_txhOp (v : BusValue) (s : State) : (returnToHost v s).txhOp = s.txhOp := rfl
@[simp] theorem returnToHost_txhLen (v : BusValue) (s : State) : (returnToHost v s).txhLen = s.txhLen := rfl
@[simp] theorem returnToHost_txhGroup (v : BusValue) (s : State) : (returnToHost v s).txhGroup = s.txhGroup := rfl
@[simp] theorem returnToHost_txhSeq (v : BusValue) (s : State) : (returnToHost v s).txhSeq = s.txhSeq := rfl
@[simp] theorem returnToHost_txhCmd (v : BusValue) (s : State) : (returnToHost v s).txhCmd = s.txhCmd := rfl
@[simp] theorem returnToHost_rxhOp (v : BusValue) (s : State) : (returnToHost v s).rxhOp = s.rxhOp := rfl
@[simp] theorem returnToHost_rxhFlags (v : BusValue) (s : State) : (returnToHost v s).rxhFlags = s.rxhFlags := rfl
@[simp] theorem returnToHost_rxhLen (v : BusValue) (s : State) : (returnToHost v s).rxhLen = s.rxhLen := rfl
@[simp] theorem returnToHost_rxhGroup (v : BusValue) (s : State) : (returnToHost v s).rxhGroup = s.rxhGroup := rfl
@[simp] theorem returnToHost_rxhSeq (v : BusValue) (s : State) : (returnToHost v s).rxhSeq = s.rxhSeq := rfl
@[simp] theorem returnToHost_rxhCmd (v : BusValue) (s : State) : (returnToHost v s).rxhCmd = s.rxhCmd := rfl
@[simp] theorem returnToHost_seq (v : BusValue) (s : State) : (returnToHost v s).seq = s.seq := rfl
@[simp] theorem returnToHost_xstate (v : BusValue) (s : State) : (returnToHost v s).xstate = s.xstate := rfl
@[simp] theorem returnToHost_widx (v : BusValue) (s : State) : (returnToHost v s).widx = s.widx := rfl
@[simp] theorem returnToHost_tmr (v : BusValue) (s : State) : (returnToHost v s).tmr = s.tmr := rfl
@[simp] theorem returnToHost_portOpen (v : BusValue) (s : State) : (returnToHost v s).portOpen = s.portOpen := rfl
@[simp] theorem returnToHost_pbuf (v : BusValue) (s : State) : (returnToHost v s).pbuf = s.pbuf := rfl
@[simp] theorem returnToHost_tbuf (v : BusValue) (s : State) : (returnToHost v s).tbuf = s.tbuf := rfl
@[simp] theorem returnToHost_wbuf (v : BusValue) (s : State) : (returnToHost v s).wbuf = s.wbuf := rfl
@[simp] theorem returnToHost_rbuf (v : BusValue) (s : State) : (returnToHost v s).rbuf = s.rbuf := rfl
@[simp] theorem returnToHost_txout (v : BusValue) (s : State) : (returnToHost v s).txout = s.txout := rfl
@[simp] theorem returnToHost_rxfifo (v : BusValue) (s : State) : (returnToHost v s).rxfifo = s.rxfifo := rfl
@[simp] theorem returnToHost_caps (v : BusValue) (s : State) : (returnToHost v s).caps = s.caps := rfl
@[simp] theorem returnToHost_draws (v : BusValue) (s : State) : (returnToHost v s).draws = s.draws := rfl
@[simp] theorem returnToHost_program (v : BusValue) (s : State) : (returnToHost v s).program = s.program := rfl
@[simp] theorem returnToHost_pc (v : BusValue) (s : State) : (returnToHost v s).pc = s.pc := rfl
@[simp] theorem returnToHost_stopped (v : BusValue) (s : State) : (returnToHost v s).stopped = s.stopped := rfl
@[simp] theorem returnToHost_reads (v : BusValue) (s : State) : (returnToHost v s).reads = s.reads ++ [v] := rfl
@[simp] theorem returnToHost_env (v : BusValue) (s : State) : (returnToHost v s).env = s.env := rfl

/-! ## `beginWait` changes `TMR` only -/

@[simp] theorem beginWait_cmd (s : State) : (beginWait s).cmd = s.cmd := by unfold beginWait; split <;> rfl
@[simp] theorem beginWait_status (s : State) : (beginWait s).status = s.status := by unfold beginWait; split <;> rfl
@[simp] theorem beginWait_err (s : State) : (beginWait s).err = s.err := by unfold beginWait; split <;> rfl
@[simp] theorem beginWait_errinfo (s : State) : (beginWait s).errinfo = s.errinfo := by unfold beginWait; split <;> rfl
@[simp] theorem beginWait_res (s : State) : (beginWait s).res = s.res := by unfold beginWait; split <;> rfl
@[simp] theorem beginWait_crc (s : State) : (beginWait s).crc = s.crc := by unfold beginWait; split <;> rfl
@[simp] theorem beginWait_data (s : State) : (beginWait s).data = s.data := by unfold beginWait; split <;> rfl
@[simp] theorem beginWait_linelen (s : State) : (beginWait s).linelen = s.linelen := by unfold beginWait; split <;> rfl
@[simp] theorem beginWait_mtu (s : State) : (beginWait s).mtu = s.mtu := by unfold beginWait; split <;> rfl
@[simp] theorem beginWait_timeout (s : State) : (beginWait s).timeout = s.timeout := by unfold beginWait; split <;> rfl
@[simp] theorem beginWait_plen (s : State) : (beginWait s).plen = s.plen := by unfold beginWait; split <;> rfl
@[simp] theorem beginWait_tlen (s : State) : (beginWait s).tlen = s.tlen := by unfold beginWait; split <;> rfl
@[simp] theorem beginWait_wlen (s : State) : (beginWait s).wlen = s.wlen := by unfold beginWait; split <;> rfl
@[simp] theorem beginWait_rlen (s : State) : (beginWait s).rlen = s.rlen := by unfold beginWait; split <;> rfl
@[simp] theorem beginWait_rplen (s : State) : (beginWait s).rplen = s.rplen := by unfold beginWait; split <;> rfl
@[simp] theorem beginWait_txhOp (s : State) : (beginWait s).txhOp = s.txhOp := by unfold beginWait; split <;> rfl
@[simp] theorem beginWait_txhLen (s : State) : (beginWait s).txhLen = s.txhLen := by unfold beginWait; split <;> rfl
@[simp] theorem beginWait_txhGroup (s : State) : (beginWait s).txhGroup = s.txhGroup := by unfold beginWait; split <;> rfl
@[simp] theorem beginWait_txhSeq (s : State) : (beginWait s).txhSeq = s.txhSeq := by unfold beginWait; split <;> rfl
@[simp] theorem beginWait_txhCmd (s : State) : (beginWait s).txhCmd = s.txhCmd := by unfold beginWait; split <;> rfl
@[simp] theorem beginWait_rxhOp (s : State) : (beginWait s).rxhOp = s.rxhOp := by unfold beginWait; split <;> rfl
@[simp] theorem beginWait_rxhFlags (s : State) : (beginWait s).rxhFlags = s.rxhFlags := by unfold beginWait; split <;> rfl
@[simp] theorem beginWait_rxhLen (s : State) : (beginWait s).rxhLen = s.rxhLen := by unfold beginWait; split <;> rfl
@[simp] theorem beginWait_rxhGroup (s : State) : (beginWait s).rxhGroup = s.rxhGroup := by unfold beginWait; split <;> rfl
@[simp] theorem beginWait_rxhSeq (s : State) : (beginWait s).rxhSeq = s.rxhSeq := by unfold beginWait; split <;> rfl
@[simp] theorem beginWait_rxhCmd (s : State) : (beginWait s).rxhCmd = s.rxhCmd := by unfold beginWait; split <;> rfl
@[simp] theorem beginWait_seq (s : State) : (beginWait s).seq = s.seq := by unfold beginWait; split <;> rfl
@[simp] theorem beginWait_xstate (s : State) : (beginWait s).xstate = s.xstate := by unfold beginWait; split <;> rfl
@[simp] theorem beginWait_widx (s : State) : (beginWait s).widx = s.widx := by unfold beginWait; split <;> rfl
@[simp] theorem beginWait_portOpen (s : State) : (beginWait s).portOpen = s.portOpen := by unfold beginWait; split <;> rfl
@[simp] theorem beginWait_pbuf (s : State) : (beginWait s).pbuf = s.pbuf := by unfold beginWait; split <;> rfl
@[simp] theorem beginWait_tbuf (s : State) : (beginWait s).tbuf = s.tbuf := by unfold beginWait; split <;> rfl
@[simp] theorem beginWait_wbuf (s : State) : (beginWait s).wbuf = s.wbuf := by unfold beginWait; split <;> rfl
@[simp] theorem beginWait_rbuf (s : State) : (beginWait s).rbuf = s.rbuf := by unfold beginWait; split <;> rfl
@[simp] theorem beginWait_txout (s : State) : (beginWait s).txout = s.txout := by unfold beginWait; split <;> rfl
@[simp] theorem beginWait_rxfifo (s : State) : (beginWait s).rxfifo = s.rxfifo := by unfold beginWait; split <;> rfl
@[simp] theorem beginWait_caps (s : State) : (beginWait s).caps = s.caps := by unfold beginWait; split <;> rfl
@[simp] theorem beginWait_draws (s : State) : (beginWait s).draws = s.draws := by unfold beginWait; split <;> rfl
@[simp] theorem beginWait_program (s : State) : (beginWait s).program = s.program := by unfold beginWait; split <;> rfl
@[simp] theorem beginWait_pc (s : State) : (beginWait s).pc = s.pc := by unfold beginWait; split <;> rfl
@[simp] theorem beginWait_stopped (s : State) : (beginWait s).stopped = s.stopped := by unfold beginWait; split <;> rfl
@[simp] theorem beginWait_reads (s : State) : (beginWait s).reads = s.reads := by unfold beginWait; split <;> rfl
@[simp] theorem beginWait_env (s : State) : (beginWait s).env = s.env := by unfold beginWait; split <;> rfl

/-! ## `appendText` changes `TBUF`, `TLEN` and the draws only -/

@[simp] theorem appendText_cmd (b : Byte) (s : State) : (appendText b s).cmd = s.cmd := by unfold appendText; dsimp only; split <;> rfl
@[simp] theorem appendText_status (b : Byte) (s : State) : (appendText b s).status = s.status := by unfold appendText; dsimp only; split <;> rfl
@[simp] theorem appendText_err (b : Byte) (s : State) : (appendText b s).err = s.err := by unfold appendText; dsimp only; split <;> rfl
@[simp] theorem appendText_errinfo (b : Byte) (s : State) : (appendText b s).errinfo = s.errinfo := by unfold appendText; dsimp only; split <;> rfl
@[simp] theorem appendText_res (b : Byte) (s : State) : (appendText b s).res = s.res := by unfold appendText; dsimp only; split <;> rfl
@[simp] theorem appendText_crc (b : Byte) (s : State) : (appendText b s).crc = s.crc := by unfold appendText; dsimp only; split <;> rfl
@[simp] theorem appendText_data (b : Byte) (s : State) : (appendText b s).data = s.data := by unfold appendText; dsimp only; split <;> rfl
@[simp] theorem appendText_linelen (b : Byte) (s : State) : (appendText b s).linelen = s.linelen := by unfold appendText; dsimp only; split <;> rfl
@[simp] theorem appendText_mtu (b : Byte) (s : State) : (appendText b s).mtu = s.mtu := by unfold appendText; dsimp only; split <;> rfl
@[simp] theorem appendText_timeout (b : Byte) (s : State) : (appendText b s).timeout = s.timeout := by unfold appendText; dsimp only; split <;> rfl
@[simp] theorem appendText_plen (b : Byte) (s : State) : (appendText b s).plen = s.plen := by unfold appendText; dsimp only; split <;> rfl
@[simp] theorem appendText_wlen (b : Byte) (s : State) : (appendText b s).wlen = s.wlen := by unfold appendText; dsimp only; split <;> rfl
@[simp] theorem appendText_rlen (b : Byte) (s : State) : (appendText b s).rlen = s.rlen := by unfold appendText; dsimp only; split <;> rfl
@[simp] theorem appendText_rplen (b : Byte) (s : State) : (appendText b s).rplen = s.rplen := by unfold appendText; dsimp only; split <;> rfl
@[simp] theorem appendText_txhOp (b : Byte) (s : State) : (appendText b s).txhOp = s.txhOp := by unfold appendText; dsimp only; split <;> rfl
@[simp] theorem appendText_txhLen (b : Byte) (s : State) : (appendText b s).txhLen = s.txhLen := by unfold appendText; dsimp only; split <;> rfl
@[simp] theorem appendText_txhGroup (b : Byte) (s : State) : (appendText b s).txhGroup = s.txhGroup := by unfold appendText; dsimp only; split <;> rfl
@[simp] theorem appendText_txhSeq (b : Byte) (s : State) : (appendText b s).txhSeq = s.txhSeq := by unfold appendText; dsimp only; split <;> rfl
@[simp] theorem appendText_txhCmd (b : Byte) (s : State) : (appendText b s).txhCmd = s.txhCmd := by unfold appendText; dsimp only; split <;> rfl
@[simp] theorem appendText_rxhOp (b : Byte) (s : State) : (appendText b s).rxhOp = s.rxhOp := by unfold appendText; dsimp only; split <;> rfl
@[simp] theorem appendText_rxhFlags (b : Byte) (s : State) : (appendText b s).rxhFlags = s.rxhFlags := by unfold appendText; dsimp only; split <;> rfl
@[simp] theorem appendText_rxhLen (b : Byte) (s : State) : (appendText b s).rxhLen = s.rxhLen := by unfold appendText; dsimp only; split <;> rfl
@[simp] theorem appendText_rxhGroup (b : Byte) (s : State) : (appendText b s).rxhGroup = s.rxhGroup := by unfold appendText; dsimp only; split <;> rfl
@[simp] theorem appendText_rxhSeq (b : Byte) (s : State) : (appendText b s).rxhSeq = s.rxhSeq := by unfold appendText; dsimp only; split <;> rfl
@[simp] theorem appendText_rxhCmd (b : Byte) (s : State) : (appendText b s).rxhCmd = s.rxhCmd := by unfold appendText; dsimp only; split <;> rfl
@[simp] theorem appendText_seq (b : Byte) (s : State) : (appendText b s).seq = s.seq := by unfold appendText; dsimp only; split <;> rfl
@[simp] theorem appendText_xstate (b : Byte) (s : State) : (appendText b s).xstate = s.xstate := by unfold appendText; dsimp only; split <;> rfl
@[simp] theorem appendText_widx (b : Byte) (s : State) : (appendText b s).widx = s.widx := by unfold appendText; dsimp only; split <;> rfl
@[simp] theorem appendText_tmr (b : Byte) (s : State) : (appendText b s).tmr = s.tmr := by unfold appendText; dsimp only; split <;> rfl
@[simp] theorem appendText_portOpen (b : Byte) (s : State) : (appendText b s).portOpen = s.portOpen := by unfold appendText; dsimp only; split <;> rfl
@[simp] theorem appendText_pbuf (b : Byte) (s : State) : (appendText b s).pbuf = s.pbuf := by unfold appendText; dsimp only; split <;> rfl
@[simp] theorem appendText_wbuf (b : Byte) (s : State) : (appendText b s).wbuf = s.wbuf := by unfold appendText; dsimp only; split <;> rfl
@[simp] theorem appendText_rbuf (b : Byte) (s : State) : (appendText b s).rbuf = s.rbuf := by unfold appendText; dsimp only; split <;> rfl
@[simp] theorem appendText_txout (b : Byte) (s : State) : (appendText b s).txout = s.txout := by unfold appendText; dsimp only; split <;> rfl
@[simp] theorem appendText_rxfifo (b : Byte) (s : State) : (appendText b s).rxfifo = s.rxfifo := by unfold appendText; dsimp only; split <;> rfl
@[simp] theorem appendText_caps (b : Byte) (s : State) : (appendText b s).caps = s.caps := by unfold appendText; dsimp only; split <;> rfl
@[simp] theorem appendText_program (b : Byte) (s : State) : (appendText b s).program = s.program := by unfold appendText; dsimp only; split <;> rfl
@[simp] theorem appendText_pc (b : Byte) (s : State) : (appendText b s).pc = s.pc := by unfold appendText; dsimp only; split <;> rfl
@[simp] theorem appendText_stopped (b : Byte) (s : State) : (appendText b s).stopped = s.stopped := by unfold appendText; dsimp only; split <;> rfl
@[simp] theorem appendText_reads (b : Byte) (s : State) : (appendText b s).reads = s.reads := by unfold appendText; dsimp only; split <;> rfl
@[simp] theorem appendText_env (b : Byte) (s : State) : (appendText b s).env = s.env := by unfold appendText; dsimp only; split <;> rfl
@[simp] theorem appendText_tbuf (b : Byte) (s : State) : (appendText b s).tbuf = s.tbuf.write s.tlen.toNat [b] := by unfold appendText; dsimp only; split <;> rfl

end Sys2Proof.Machine
end

