-- ==== Sys2Proof/Laws/Flags.lean ====
section
/-! SUPPORT. The laws of the two flags of `STATUS` (10_state.md R22). -/

namespace Sys2Proof.Machine

@[simp] theorem raiseErrf_errf (b : Byte) : (raiseErrf b)[0] = true := by revert b; decide

@[simp] theorem raiseErrf_mtuovf (b : Byte) : (raiseErrf b)[1] = b[1] := by revert b; decide

@[simp] theorem putMtuovf_errf (b : Byte) (v : Bool) : (putMtuovf b v)[0] = b[0] := by
  revert b v; decide

@[simp] theorem putMtuovf_mtuovf (b : Byte) (v : Bool) : (putMtuovf b v)[1] = v := by
  revert b v; decide

/-- Both flag writes keep bits 7:2 zero. -/
theorem raiseErrf_reserved (b : Byte) (h : b &&& 0xFC = 0) : raiseErrf b &&& 0xFC = 0 := by
  revert b; decide

theorem putMtuovf_reserved (b : Byte) (v : Bool) (h : b &&& 0xFC = 0) : putMtuovf b v &&& 0xFC = 0 := by
  revert b v; decide

/-- The host reads bits 7:2 of `STATUS` as zero, and the two flags as they are. -/
theorem readStatus_reserved (b : Byte) : readStatus b &&& 0xFC = 0 := by revert b; decide

theorem readStatus_flags (b : Byte) : readStatus b = statusOf (b.getLsbD 0) (b.getLsbD 1) := by revert b; decide

/-- After the fault entry `ERRF` is set (R280). -/
@[simp] theorem errf_raiseFault (c : FaultCode) (i : Half) (s : State) : (raiseFault c i s).errf = true := by
  simp [State.errf]

@[simp] theorem mtuovf_raiseFault (c : FaultCode) (i : Half) (s : State) :
    (raiseFault c i s).mtuovf = s.mtuovf := by simp [State.mtuovf]

@[simp] theorem errf_scrambleText (s : State) : (scrambleText s).errf = s.errf := rfl
@[simp] theorem errf_scrambleRaw (s : State) : (scrambleRaw s).errf = s.errf := rfl
@[simp] theorem errf_scrambleHeader (s : State) : (scrambleHeader s).errf = s.errf := rfl
@[simp] theorem errf_scrambleEncoded (s : State) : (scrambleEncoded s).errf = s.errf := by
  simp [State.errf]
@[simp] theorem errf_deliverFrame (f : ParsedFrame) (s : State) : (deliverFrame f s).errf = s.errf := rfl
@[simp] theorem errf_returnToHost (v : BusValue) (s : State) : (returnToHost v s).errf = s.errf := rfl
@[simp] theorem errf_beginWait (s : State) : (beginWait s).errf = s.errf := by simp [State.errf]
@[simp] theorem errf_appendText (b : Byte) (s : State) : (appendText b s).errf = s.errf := by simp [State.errf]

/-- Every fault has a code that is not zero, at most 13 (R271). -/
theorem FaultCode.code_range (c : FaultCode) : c.code ≠ 0 ∧ c.code.toNat ≤ 13 := by cases c <;> decide

end Sys2Proof.Machine
end

