-- ==== Sys2Proof/Laws/Exec.lean ====
section
/-! SUPPORT. What the shared operations around a meaning can do, said once: a command either does nothing (after a fault)
or has its effect; arrival, the machine's turn and the host's turn. -/

namespace Sys2Proof.Machine

/-! ## Commands (R94, R282) -/

theorem command_live {s : State} (h : s.errf = false) (f : State → State) : command s f = .next (f s) := by
  simp [command, h]

theorem command_faulted {s : State} (h : s.errf = true) (f : State → State) : command s f = .next s := by
  simp [command, h]

/-- Everything a command can do. -/
theorem command_cases {s t : State} {f : State → State} (h : command s f = .next t) :
    (s.errf = true ∧ t = s) ∨ (s.errf = false ∧ t = f s) := by
  unfold command at h
  injection h with h
  cases he : s.errf <;> simp [he] at h
  · exact .inr ⟨rfl, h.symm⟩
  · exact .inl ⟨rfl, h.symm⟩

/-- Every instruction of every state has a next state: no meaning faults or refuses. -/
theorem exec_next (i : Instr) (s : State) : ∃ t, exec i s = .next t := by
  cases i <;> exact ⟨_, rfl⟩

/-- Any number of commands in a row has a next state. -/
theorem execRepeat_next (i : Instr) (k : Nat) (s : State) : ∃ t, execRepeat i k s = .next t := by
  induction k generalizing s with
  | zero => exact ⟨s, rfl⟩
  | succ k ih =>
    obtain ⟨u, hu⟩ := exec_next i s
    obtain ⟨t, ht⟩ := ih u
    exact ⟨t, by simp only [execRepeat, hu, ht]⟩

/-- Issuing a code always answers a next state. -/
theorem issueCommand_next (code : Byte) (s : State) : ∃ t, issueCommand code s = .next t := by
  unfold issueCommand
  split
  · exact ⟨_, rfl⟩
  · split
    · exact exec_next _ _
    · exact ⟨_, rfl⟩

/-! ## The turns -/

theorem step_eq_machineTurn {s : State} (h : s.env = []) : step s = machineTurn s := by
  simp [step, takeTurn, h]

theorem step_eq_envTurn {s : State} {e : EnvEvent} {rest : List EnvEvent} (h : s.env = e :: rest)
    (he : e.enabled s = true) : step s = envTurn e { s with env := rest } := by
  simp [step, takeTurn, h, he]

theorem step_not_enabled {s : State} {e : EnvEvent} {rest : List EnvEvent} (h : s.env = e :: rest)
    (he : e.enabled s = false) : step s = machineTurn s := by
  simp [step, takeTurn, h, he]

theorem machineTurn_busy {s : State} (h : s.xstate.busy = true) :
    machineTurn s = .next (operationDone s (xcvStep s)) := by
  simp [machineTurn, h, exchangeDone]

theorem machineTurn_host {s : State} (h : s.xstate.busy = false) : machineTurn s = hostTurn s := by
  simp [machineTurn, h]

/-- The step of a host that performs an operation. -/
theorem State.performs.step_eq {s : State} {op : BusOp} (h : s.performs op) :
    step s =
      match busOp op s with
      | .next t => .next (operationDone s t)
      | .fault r => .fault r
      | .refused r => .refused r := by
  obtain ⟨hb, hs, he, hp⟩ := h
  rw [step_eq_machineTurn he, machineTurn_host hb]
  simp only [hostTurn, hs, hp]
  cases busOp op s <;> rfl

theorem operationDone_busy {s t : State} (h : t.xstate.busy = true) : operationDone s t = t := by
  simp [operationDone, h]

theorem operationDone_fault {s t : State} (h : t.xstate.busy = false) (hs : s.errf = false) (ht : t.errf = true) :
    operationDone s t = { t with stopped := true } := by
  simp [operationDone, h, hs, ht]

theorem operationDone_same {s t : State} (h : t.xstate.busy = false) (ht : t.errf = s.errf) :
    operationDone s t = { t with pc := t.pc + 1 } := by
  cases hs : s.errf <;> simp [operationDone, h, ht, hs]

theorem exchangeDone_busy {s t : State} (h : s.xstate.busy = true) : exchangeDone s t = operationDone s t := by
  simp [exchangeDone, h]

theorem exchangeDone_idle {s t : State} (h : s.xstate.busy = false) : exchangeDone s t = t := by
  simp [exchangeDone, h]

/-- A wire symbol is the arrival of its bytes, and any bytes the device sends arrive (R216; log 11). -/
theorem deviceTurn_eq (bytes : List Byte) (s : State) :
    deviceTurn bytes s = .next (exchangeDone s (arriveBytes bytes s)) := by
  unfold deviceTurn decodeWire
  by_cases h1 : bytes = startMarker
  · subst h1; rfl
  · by_cases h2 : bytes = contMarker
    · subst h2; rfl
    · by_cases h3 : bytes = [terminator]
      · subst h3; rfl
      · simp [h1, h2, h3]

theorem receiving_busy {x : XState} (h : x.receiving = true) : x.busy = true := by
  cases x <;> first | rfl | cases h

/-! ## Arrival -/

@[simp] theorem arriveBytes_nil (s : State) : arriveBytes [] s = s := rfl
@[simp] theorem arriveBytes_cons (b : Byte) (bs : List Byte) (s : State) :
    arriveBytes (b :: bs) s = arriveBytes bs (arriveByte b s) := rfl

theorem arriveBytes_append (bs cs : List Byte) (s : State) :
    arriveBytes (bs ++ cs) s = arriveBytes cs (arriveBytes bs s) := by
  induction bs generalizing s with
  | nil => rfl
  | cons b bs ih => simp [ih]

theorem arriveByte_queues {s : State} (h : s.waiting = false) (b : Byte) :
    arriveByte b s = { s with rxfifo := s.rxfifo ++ [b] } := by
  simp [arriveByte, h]

/-- Bytes that arrive while the machine does not wait are queued, and nothing else happens (R216, R276). -/
theorem arriveBytes_queues {s : State} (h : s.waiting = false) (bs : List Byte) :
    arriveBytes bs s = { s with rxfifo := s.rxfifo ++ bs } := by
  induction bs generalizing s with
  | nil => simp
  | cons b bs ih =>
    rw [arriveBytes_cons, arriveByte_queues h, ih]
    · simp
    · simp only [State.waiting] at h ⊢
      simp

/-- A byte that arrives at a waiting machine is taken at once (R206; log 10). -/
theorem arriveByte_waiting {s : State} (hr : s.xstate.receiving = true) (hq : s.rxfifo = []) (b : Byte) :
    arriveByte b s = takeByte b s := by
  have hw : s.waiting = true := by simp [State.waiting, hr, hq]
  have hs : ({ s with rxfifo := [] } : State) = s := by rw [← hq]
  simp [arriveByte, hw, receiveStep, hq, hs]

end Sys2Proof.Machine
end

