-- ==== Sys2Proof/Laws/PerInstr.lean ====
section
/-! SUPPORT. A law stated of every instruction, one lemma per constructor: the shape of its encoding (30_encoding.md R89,
R93): a command is one byte, a wire symbol one or two, and the table's numbering keeps them on their channel. -/

namespace Sys2Proof.Laws

/-- The shape of an instruction's encoding. -/
def EncodingShape.Statement (i : Instr) : Prop :=
  (channelOf i = .command → (encode i).length = 1) ∧
  (channelOf i = .wire → 1 ≤ (encode i).length ∧ (encode i).length ≤ 2) ∧ tableChannel (encode i) = channelOf i

theorem EncodingShape.seqNext : EncodingShape.Statement .seqNext := by unfold EncodingShape.Statement; decide
theorem EncodingShape.crcInit : EncodingShape.Statement .crcInit := by unfold EncodingShape.Statement; decide
theorem EncodingShape.crcUpd : EncodingShape.Statement .crcUpd := by unfold EncodingShape.Statement; decide
theorem EncodingShape.crcBuf : EncodingShape.Statement .crcBuf := by unfold EncodingShape.Statement; decide
theorem EncodingShape.b64Enc : EncodingShape.Statement .b64Enc := by unfold EncodingShape.Statement; decide
theorem EncodingShape.b64Dec : EncodingShape.Statement .b64Dec := by unfold EncodingShape.Statement; decide
theorem EncodingShape.frmEnc : EncodingShape.Statement .frmEnc := by unfold EncodingShape.Statement; decide
theorem EncodingShape.frmDec : EncodingShape.Statement .frmDec := by unfold EncodingShape.Statement; decide
theorem EncodingShape.xcv : EncodingShape.Statement .xcv := by unfold EncodingShape.Statement; decide
theorem EncodingShape.markStart : EncodingShape.Statement .markStart := by unfold EncodingShape.Statement; decide
theorem EncodingShape.markCont : EncodingShape.Statement .markCont := by unfold EncodingShape.Statement; decide
theorem EncodingShape.term : EncodingShape.Statement .term := by unfold EncodingShape.Statement; decide

end Sys2Proof.Laws
end

