-- ==== Sys2Proof/Tests/Slice0.lean ====
section
/-! SUPPORT. Tests: the words of the opcode table written out bit by bit, the well-formedness checks, one step of each
instruction against the spec's worked examples and vectors, and states that meet the hypotheses of the statements. -/

namespace Sys2Proof.Tests

open Sys2Proof.Machine

/-! ## Helpers -/

/-- After reset, with a seed and an empty queue. -/
def fresh : State := State.resetWith 0x42 [] 0 Config.unbounded

/-- The same after some fault (`ERR_CRC`). -/
def faulted : State := raiseFault .crc 0x0E31 fresh

/-- A field of the next state, if there is one. -/
def after {α : Type} (o : Host.Outcome State Fault Refusal) (f : State → α) : Option α :=
  match o with
  | .next t => some (f t)
  | .fault _ => none
  | .refused _ => none

/-- The reason of a refusal, if it is one. -/
def refusalOf (o : Host.Outcome State Fault Refusal) : Option Refusal :=
  match o with
  | .next _ => none
  | .fault _ => none
  | .refused r => some r

/-- A state with these bytes as the payload. -/
def payload (bs : List Byte) (s : State) : State :=
  { s with pbuf := s.pbuf.write 0 bs, plen := BitVec.ofNat 16 bs.length }

/-- A state with these bytes as the text. -/
def text (bs : List Byte) (s : State) : State :=
  { s with tbuf := s.tbuf.write 0 bs, tlen := BitVec.ofNat 32 bs.length }

/-- The inputs of V-F1 (95_test_vectors.md). -/
def request (linelen : Half) : State :=
  payload [0xA0] { fresh with txhGroup := 1, txhSeq := 0x42, linelen := linelen, mtu := 512 }

/-- The text of V-F4: `AAsBAAABAAFCAKAeEA==`. -/
def responseText : List Byte :=
  [0x41, 0x41, 0x73, 0x42, 0x41, 0x41, 0x41, 0x42, 0x41, 0x41, 0x46, 0x43, 0x41, 0x4B, 0x41, 0x65, 0x45, 0x41,
    0x3D, 0x3D]

/-- The raw frame of V-F4. -/
def responseRaw : List Byte := [0x00, 0x0B, 0x01, 0x00, 0x00, 0x01, 0x00, 0x01, 0x42, 0x00, 0xA0, 0x1E, 0x10]

/-- A receiver that waits on an empty queue, five seconds for each byte. -/
def waitingIn (x : XState) : State := { fresh with xstate := x, portOpen := true, timeout := 5, tmr := 5 }

/-- A state whose next step is the host's operation. -/
def performing (op : BusOp) (s : State) : State := { s with program := [op], env := [] }

/-! ## Decoding: the words of 30_encoding.md R95 and R89, written out -/

theorem test_decode_seqNext : decodeTableWord 8 0b00010000 = some .seqNext := by decide
theorem test_decode_crcInit : decodeTableWord 8 0b00100000 = some .crcInit := by decide
theorem test_decode_crcUpd : decodeTableWord 8 0b00100001 = some .crcUpd := by decide
theorem test_decode_crcBuf : decodeTableWord 8 0b00100010 = some .crcBuf := by decide
theorem test_decode_b64Enc : decodeTableWord 8 0b00110000 = some .b64Enc := by decide
theorem test_decode_b64Dec : decodeTableWord 8 0b00110001 = some .b64Dec := by decide
theorem test_decode_frmEnc : decodeTableWord 8 0b01000000 = some .frmEnc := by decide
theorem test_decode_frmDec : decodeTableWord 8 0b01000001 = some .frmDec := by decide
theorem test_decode_xcv : decodeTableWord 8 0b01010000 = some .xcv := by decide
theorem test_decode_markStart : decodeTableWord 16 0b0000011000001001 = some .markStart := by decide
theorem test_decode_markCont : decodeTableWord 16 0b0000010000010100 = some .markCont := by decide
theorem test_decode_term : decodeTableWord 8 0b00001010 = some .term := by decide

/-- V-E1 to V-E4: none of these is a command. -/
theorem test_decode_illegal :
    [0x00, 0x11, 0x51, 0xFF].map (fun n => decodeTableWord 8 n) = [none, none, none, none] := by decide

/-- The bytes of a marker in the other order are no symbol. -/
theorem test_decode_marker_order : decodeTableWord 16 0x0906 = none := by decide

/-- A command placed at the fetch runs: `CRC.INIT` clears `CRC` and the host moves on. -/
theorem test_fetch_command :
    after (step ({ fresh with crc := 0x31C3 }.withFetchWord 8 0x20)) (fun t => (t.crc, t.pc)) = some (0, 1) := by decide

/-- A wire symbol placed at the fetch arrives, from the reset state itself. -/
theorem test_fetch_symbol :
    after (step (State.reset.withFetchWord 16 0x0414)) (fun t => t.xstate) = some .idle := by decide

/-! ## Well-formedness (10_state.md R41; V-E7): one ill-formed operation for each check -/

/-- Capacities small enough to be exceeded. -/
def small : Capacities := { pbuf := some 4, tbuf := some 8, wbuf := some 4, rbuf := some 4 }

theorem test_wf_instr : Instr.wellFormed .xcv = true := by decide
theorem test_wf_unknown_register : BusOp.wellFormed Config.unbounded (.rd 0x0F) = false := by decide
theorem test_wf_read_of_cmd : BusOp.wellFormed Config.unbounded (.rd 0x00) = false := by decide
theorem test_wf_write_of_read_only : BusOp.wellFormed Config.unbounded (.wr 0x0C 1) = false := by decide
theorem test_wf_write_of_flags : BusOp.wellFormed Config.unbounded (.wr 0x11 1) = false := by decide
theorem test_wf_value_too_wide : BusOp.wellFormed Config.unbounded (.wr 0x06 256) = false := by decide
theorem test_wf_plen_beyond : BusOp.wellFormed small (.wr 0x0A 5) = false := by decide
theorem test_wf_tlen_beyond : BusOp.wellFormed small (.wr 0x0B 9) = false := by decide
theorem test_wf_write_of_wbuf : BusOp.wellFormed Config.unbounded (.wrb .WBUF 0 [0]) = false := by decide
theorem test_wf_write_of_rbuf : BusOp.wellFormed Config.unbounded (.wrb .RBUF 0 [0]) = false := by decide
theorem test_wf_write_beyond : BusOp.wellFormed small (.wrb .PBUF 3 [0, 0]) = false := by decide
theorem test_wf_read_beyond : BusOp.wellFormed small (.rdb .TBUF 8 1) = false := by decide
theorem test_wf_program : programWellFormed small [.wr 0x0A 4, .rd 0x00] = false := by decide
theorem test_wf_good_program :
    programWellFormed small [.wr 0x0A 4, .wrb .PBUF 0 [1, 2, 3, 4], .wr 0x00 0xFF, .rd 0x05] = true := by decide

/-- The host's step refuses what the check refuses. -/
theorem test_refused_step : refusalOf (step (performing (.rd 0x00) fresh)) = some (.notReadable .CMD) := by decide

/-! ## One step of each instruction -/

/-- V-S2. -/
theorem test_seqNext_wraps :
    after (exec .seqNext { fresh with seq := 0xFF }) (fun t => (t.res, t.seq, t.status)) = some (0xFF, 0x00, 0) := by
  decide

/-- V-S5. -/
theorem test_seqNext_after_fault :
    after (exec .seqNext { faulted with seq := 0x10 }) (fun t => (t.res, t.seq)) = some (0x00, 0x10) := by decide

/-- V-C14. -/
theorem test_crcInit : after (exec .crcInit { fresh with crc := 0x31C3 }) (fun t => t.crc) = some 0 := by decide

/-- V-C15. -/
theorem test_crcUpd :
    after (exec .crcUpd { fresh with data := 0x31 }) (fun t => (t.crc, t.data)) = some (0x2672, 0x31) := by decide +kernel

/-- V-C16. -/
theorem test_crcUpd_again :
    after (exec .crcUpd { fresh with data := 0x32, crc := 0x2672 }) (fun t => t.crc) = some 0x20B5 := by decide

/-- V-C17. -/
theorem test_crcBuf :
    after (exec .crcBuf (payload [0x31, 0x32, 0x33, 0x34, 0x35, 0x36, 0x37, 0x38, 0x39] fresh)) (fun t => t.crc) =
      some 0x31C3 := by decide +kernel

/-- V-C18. -/
theorem test_crcBuf_empty : after (exec .crcBuf { fresh with crc := 0x1234 }) (fun t => t.crc) = some 0x1234 := by decide

/-- V-B40. -/
theorem test_b64Enc :
    after (exec .b64Enc (payload [0x66, 0x6F, 0x6F, 0x62] fresh)) (fun t => (t.tlen, textOperand t)) =
      some (8, [0x5A, 0x6D, 0x39, 0x76, 0x59, 0x67, 0x3D, 0x3D]) := by decide +kernel

/-- V-B12: the two last characters of the alphabet. -/
theorem test_b64Enc_tail :
    after (exec .b64Enc (payload [0xFB, 0xFF] fresh)) textOperand = some [0x2B, 0x2F, 0x38, 0x3D] := by decide

/-- V-B42. -/
theorem test_b64Dec :
    after (exec .b64Dec (text [0x41, 0x41, 0x77, 0x3D] fresh)) (fun t => (t.rlen, t.rbuf.read 0 2, t.errf)) =
      some (2, [0x00, 0x0C], false) := by decide +kernel

/-- V-B44. -/
theorem test_b64Dec_not_canonical :
    after (exec .b64Dec (text [0x5A, 0x68, 0x3D, 0x3D] fresh)) (fun t => (t.err, t.errinfo, t.status)) =
      some (6, 0, 0x01) := by decide

/-- V-F1, V-F40. -/
theorem test_frmEnc :
    after (exec .frmEnc (request 128)) (fun t => (t.wlen, wireOperand t, t.crc, t.txhLen, t.status)) =
      some (23,
        [0x06, 0x09, 0x41, 0x41, 0x73, 0x41, 0x41, 0x41, 0x41, 0x42, 0x41, 0x41, 0x46, 0x43, 0x41, 0x4B, 0x44, 0x31,
          0x4D, 0x77, 0x3D, 0x3D, 0x0A], 0xF533, 1, 0) := by decide +kernel

/-- V-F9: two lines, the break inside a base64 group, 26 bytes. -/
theorem test_frmEnc_two_lines :
    after (exec .frmEnc (request 23)) (fun t => (t.wlen, (wireOperand t).drop 21)) =
      some (26, [0x0A, 0x04, 0x14, 0x3D, 0x0A]) := by decide +kernel

/-- R187, with V-F4. -/
theorem test_frmDec :
    after (exec .frmDec (text responseText fresh))
      (fun t => (t.rbuf.read 0 13, t.rlen, t.crc, (t.rxhOp, t.rxhFlags, t.rxhLen, t.rxhGroup), t.rxhSeq, t.rplen)) =
      some (responseRaw, 13, 0x1E10, (1, 0, 1, 1), 0x42, 1) := by decide +kernel

/-- V-X18 (the text of V-D3): a payload bit is flipped. -/
theorem test_frmDec_bad_checksum :
    after (exec .frmDec (text (responseText.set 14 0x45) fresh)) (fun t => (t.err, t.errinfo, t.xstate, t.portOpen)) =
      some (9, 0x0E31, .fault, false) := by decide +kernel

/-- R202. -/
theorem test_xcv : after (exec .xcv fresh) (fun t => (t.xstate, t.portOpen, t.txout)) = some (.opening, false, []) := by
  decide

/-- V-X19. -/
theorem test_xcv_after_fault : after (exec .xcv faulted) (fun t => (t.xstate, t.err)) = some (.fault, 9) := by decide

/-- R213: both bytes of the marker are accepted. -/
theorem test_markStart :
    after (exec .markStart (waitingIn .waitM0)) (fun t => (t.xstate, t.rxfifo, t.errf)) = some (.body, [], false) := by
  decide

/-- R207: `06 06 09` faults at the second byte with `ERRINFO` 0x0106. -/
theorem test_markStart_after_06 :
    after (exec .markStart (waitingIn .waitM1)) (fun t => (t.err, t.errinfo, t.rxfifo)) = some (5, 0x0106, [0x09]) := by
  decide

/-- V-X16: a continuation line first. -/
theorem test_markCont :
    after (exec .markCont (waitingIn .waitM0)) (fun t => (t.err, t.errinfo, t.rxfifo)) = some (5, 0x0004, [0x14]) := by
  decide

/-- R91: in the line both bytes are content. -/
theorem test_markCont_in_body :
    after (exec .markCont (waitingIn .body)) (fun t => (t.xstate, t.tlen, textOperand t)) =
      some (.body, 2, [0x04, 0x14]) := by decide

/-- R209: the line ends and the device is closed. -/
theorem test_term :
    after (exec .term (waitingIn .body)) (fun t => (t.xstate, t.portOpen, t.tlen)) = some (.decode, false, 0) := by decide

/-- R206: a newline is no marker. -/
theorem test_term_at_marker :
    after (exec .term (waitingIn .waitM0)) (fun t => (t.err, t.errinfo)) = some (5, 0x000A) := by decide

/-! ## Witnesses: states and operands that meet the hypotheses of each statement, clause by clause -/

/-- The host's operation is the next thing to happen. -/
theorem performing_performs (op : BusOp) (s : State) (hb : s.xstate.busy = false) (hs : s.stopped = false)
    (hp : s.pc = 0) : (performing op s).performs op :=
  ⟨hb, hs, rfl, by simp [performing, hp]⟩

theorem witness_DecodeAndEncodeAgree :
    Instr.wellFormed .term = true ∧ decode .wire [0x0A] = .ok .term ∧ decode .command [0x50] = .ok .xcv :=
  ⟨rfl, rfl, rfl⟩

theorem witness_StepRunsTheDecodedCommand :
    ((performing (.wr 0 0x50) fresh).performs (.wr 0 (0x50 : Byte).toNat) ∧ fresh.errf = false) ∧
    ((performing (.wr 0 0x50) faulted).performs (.wr 0 (0x50 : Byte).toNat) ∧ faulted.errf = true) ∧
    decodeCommand 0x50 = .ok .xcv :=
  ⟨⟨⟨rfl, rfl, rfl, rfl⟩, rfl⟩, ⟨⟨rfl, rfl, rfl, rfl⟩, rfl⟩, rfl⟩

theorem witness_StepRunsTheDecodedSymbol :
    { waitingIn .waitM0 with env := [.push [0x06, 0x09]] }.env = [.push [0x06, 0x09]] ∧
    decodeWire [0x06, 0x09] = .ok .markStart := ⟨rfl, rfl⟩

/-- For every statement with a clause for `ERRF = 0` and one for `ERRF = 1`. -/
theorem witness_errf : fresh.errf = false ∧ faulted.errf = true := by decide

theorem witness_SequenceIdsCycleThroughAll256 :
    fresh.errf = false ∧ (∃ t, execRepeat .seqNext 1 fresh = .next t) ∧
    (∃ t, execRepeat .seqNext 256 fresh = .next t) ∧ (∃ t, execRepeat .seqNext 257 fresh = .next t) :=
  ⟨rfl, execRepeat_next _ _ _, execRepeat_next _ _ _, execRepeat_next _ _ _⟩

theorem witness_CrcDetectsEverySingleBitError : 0 < ([0xA0] : List Byte).length ∧ 7 < 8 := by decide

/-- The first byte of "foo", its first two, all three, as 24-bit values. -/
theorem witness_EncodedTextLengthAndPadding :
    (6684672 : Nat) = (0x66 : Byte).toNat * 65536 ∧
    (6713088 : Nat) = (0x66 : Byte).toNat * 65536 + (0x6F : Byte).toNat * 256 ∧
    (6713199 : Nat) = (0x66 : Byte).toNat * 65536 + (0x6F : Byte).toNat * 256 + (0x6F : Byte).toNat := by decide

theorem witness_Base64RoundTrips : b64dec [0x41, 0x41, 0x77, 0x3D] = some [0x00, 0x0C] := by decide

/-- One byte becomes four characters: a `TBUF` of four holds them, one of three does not. -/
theorem witness_B64EncWritesTheText :
    fresh.errf = false ∧ b64enc ([0x66] : List Byte) = [0x5A, 0x67, 0x3D, 0x3D] ∧ fits 4 (some 4) = true ∧
    fits 4 (some 3) = false ∧ (payload [0x66] fresh).pbuf.read 0 (payload [0x66] fresh).plen.toNat = [0x66] := by
  decide +kernel

/-- A malformed text, one whose bytes just fit `RBUF`, one whose bytes do not. -/
theorem witness_B64DecWritesTheBytes :
    b64dec (textOperand (text [0x5A, 0x68, 0x3D, 0x3D] fresh)) = none ∧
    b64dec (textOperand (text [0x41, 0x41, 0x77, 0x3D] fresh)) = some [0x00, 0x0C] ∧
    fits 2 (some 2) = true ∧ fits 2 (some 1) = false ∧ fresh.errf = false := by decide +kernel

/-- The largest payload and the narrowest line, for every statement that bounds them. -/
theorem witness_largest_payload : (List.replicate 65525 (0 : Byte)).length ≤ 65525 ∧ 5 ≤ 5 :=
  ⟨Nat.le_of_eq List.length_replicate, Nat.le_refl 5⟩

theorem witness_LinesCarryTheText :
    1 ≤ 1 ∧ ([0x3D, 0x2F] : List Byte) ≠ [] ∧
    ∀ c ∈ ([0x3D, 0x2F] : List Byte), (b64Value c).isSome = true ∨ c = padChar := by decide

/-- The four outcomes at their boundaries: `LINELEN` 4, `PLEN` 65526, a `WBUF` one byte too small, one that just fits. -/
theorem witness_FrmEncAssemblesTheFrame :
    (request 4).linelen.toNat < 5 ∧
    (65525 < { request 5 with plen := 65526 }.plen.toNat ∧ ¬ (request 5).linelen.toNat < 5) ∧
    (fits (wireBytes (request 128)).length (some 22) = false ∧ ¬ (request 128).linelen.toNat < 5) ∧
    fits (wireBytes (request 128)).length (some 23) = true ∧ ¬ 65525 < (request 128).plen.toNat ∧
    (request 128).errf = false := by decide +kernel

/-- A text that is no base64, 11 bytes, a wrong prefix, a wrong checksum, a good frame. -/
theorem witness_FrameParseChecksInOrder :
    b64dec [0x3D, 0x41, 0x41, 0x41] = none ∧
    b64dec (b64enc (List.replicate 11 0)) = some (List.replicate 11 0) ∧
    (12 ≤ (List.replicate 12 (0 : Byte)).length ∧ (fieldAt (List.replicate 12 0) 0).toNat ≠ 12 - 2) ∧
    (12 ≤ (responseRaw.set 10 0xA1).length ∧ (fieldAt (responseRaw.set 10 0xA1) 0).toNat = 13 - 2 ∧
      crc16 (((responseRaw.set 10 0xA1).drop 2).take (13 - 4)) ≠ fieldAt (responseRaw.set 10 0xA1) (13 - 2)) ∧
    (fieldAt responseRaw 0).toNat = 13 - 2 ∧ crc16 ((responseRaw.drop 2).take (13 - 4)) = fieldAt responseRaw (13 - 2) ∧
    b64dec responseText = some responseRaw := by
  decide +kernel

/-- A good frame, delivered when it just fits `RBUF` and not when it does not, and a bad one. -/
theorem witness_FrmDecChecksAndDelivers :
    fresh.errf = false ∧
    (frameParse (textOperand (text responseText fresh))).toOption.map (fun f => f.raw) = some responseRaw ∧
    fits responseRaw.length (some 13) = true ∧ fits responseRaw.length (some 12) = false ∧
    (frameParse (textOperand fresh)).toOption = none := by decide +kernel

theorem witness_FrmEncThenFrmDecReturnsTheRequest :
    (request 5).errf = false ∧ 5 ≤ (request 5).linelen.toNat ∧ (request 5).plen.toNat ≤ 65525 ∧
    (request 5).caps = Config.unbounded ∧ ∃ t, exec .frmEnc (request 5) = .next t :=
  ⟨by decide, by decide, by decide, by decide, ⟨_, rfl⟩⟩

/-- The first and the last byte of header and payload. -/
theorem witness_FlippedRawBitIsAChecksumMismatch :
    (rawParse responseRaw).toOption.isSome = true ∧ 10 < responseRaw.length - 2 ∧ 2 ≤ 2 ∧ 7 < 8 := by decide +kernel

theorem witness_FlippedTextBitIsNeverAccepted :
    (frameParse responseText).toOption.isSome = true ∧ 19 < responseText.length ∧ 7 < 8 := by decide +kernel

theorem witness_WrongPrefixIsALengthMismatch :
    12 ≤ (List.replicate 12 (0 : Byte)).length ∧ (9 : Half).toNat ≠ (List.replicate 12 (0 : Byte)).length - 2 := by
  decide

/-- A line of one character, and the longest line that is not the whole text. -/
theorem witness_MultiLineResponseNeverPasses :
    (1 < (b64enc responseRaw).length ∧ 19 < (b64enc responseRaw).length ∧ (b64enc responseRaw).length = 20) ∧
    rawFrame (headerOf responseRaw) [0xA0] 0x1E10 = responseRaw := by decide +kernel

theorem witness_XcvBeginsAnExchange : (performing (.wr 0 0x50) fresh).performs (.wr 0 0x50) := ⟨rfl, rfl, rfl, rfl⟩

theorem witness_XcvOpensThenFlushes :
    ({ fresh with xstate := .opening }.env = [] ∧ { fresh with xstate := .opening, env := [.openFail] }.errf = false) ∧
    { fresh with xstate := .flush, rxfifo := [0xFF] }.env = [] := by decide

/-- A frame of one byte: its write, its failing write, the end of the frame. -/
theorem witness_XcvWritesTheFrame :
    (let s := { fresh with xstate := .write, wlen := 1 }
     s.env = [] ∧ s.widx.toNat < s.wlen.toNat) ∧
    (let s := { fresh with xstate := .write, wlen := 1, env := [.writeFail 0] }
     s.errf = false ∧ s.env = [.writeFail s.widx.toNat] ∧ s.widx.toNat < s.wlen.toNat) ∧
    (let s := { fresh with xstate := .write, wlen := 1, widx := 1 }
     s.env = [] ∧ s.wlen.toNat ≤ s.widx.toNat) := by decide

theorem witness_XcvWaitsForTheMarker :
    { waitingIn .waitM0 with rxfifo := [0x06] }.rxfifo = 0x06 :: [] ∧ (waitingIn .waitM0).env = [] ∧
    ({ waitingIn .waitM0 with rxfifo := [0x09] }.errf = false ∧ (0x09 : Byte) ≠ 0x06) ∧
    { waitingIn .waitM1 with rxfifo := [0x09] }.rxfifo = 0x09 :: [] ∧ (waitingIn .waitM1).env = [] ∧
    ({ waitingIn .waitM1 with rxfifo := [0x06] }.errf = false ∧ (0x06 : Byte) ≠ 0x09) := by decide

/-- The newline, a byte into the last free place of `TBUF`, a byte at the greatest `TLEN`, a byte when `TBUF` is full. -/
theorem witness_XcvGathersTheLine :
    (let s := { waitingIn .body with rxfifo := [0x0A] }
     s.env = [] ∧ s.xstate = .body ∧ s.rxfifo = 0x0A :: []) ∧
    (let s := { waitingIn .body with rxfifo := [0x41], tlen := 7, caps := small }
     s.env = [] ∧ s.rxfifo = 0x41 :: [] ∧ (0x41 : Byte) ≠ 0x0A ∧ s.caps.tbuf ≠ some s.tlen.toNat ∧
       s.tlen.toNat + 1 < 2 ^ 32) ∧
    (let s := { waitingIn .body with rxfifo := [0x41], tlen := 0xFFFFFFFF }
     s.env = [] ∧ s.xstate = .body ∧ s.rxfifo = 0x41 :: [] ∧ s.caps.tbuf ≠ some s.tlen.toNat ∧
       s.tlen.toNat + 1 = 2 ^ 32) ∧
    (let s := { waitingIn .body with rxfifo := [0x41], tlen := 8, caps := small }
     s.errf = false ∧ s.env = [] ∧ s.rxfifo = 0x41 :: [] ∧ s.caps.tbuf = some s.tlen.toNat) := by decide

theorem witness_XcvChecksTheFrame :
    (let s := { text responseText fresh with xstate := .decode }
     s.errf = false ∧ s.env = [] ∧ (frameParse (textOperand s)).toOption.isSome = true ∧
       fits responseRaw.length (some 13) = true ∧ fits responseRaw.length (some 12) = false) ∧
    (let s := { fresh with xstate := .decode }
     s.errf = false ∧ s.env = [] ∧ (frameParse (textOperand s)).toOption = none) := by decide +kernel

theorem witness_TimeoutAndReadFailureOnlyOnAnEmptyQueue :
    (let s := { waitingIn .waitM0 with env := [.timeout] }
     s.errf = false ∧ s.xstate.receiving = true ∧ s.rxfifo = []) ∧
    (let s := { waitingIn .waitM1 with env := [.readFail] }
     s.errf = false ∧ s.xstate.receiving = true ∧ s.rxfifo = []) ∧
    (let s := { waitingIn .waitM0 with rxfifo := [0x06] }
     s.xstate.receiving = true ∧ s.rxfifo ≠ [] ∧ (after (step { s with env := [] }) (fun t => t.xstate)).isSome) ∧
    (waitingIn .body).env = [] := by decide

/-- Five seconds: four ticks do not end the wait, the fifth does. -/
theorem witness_TimerRunsOutAfterTimeoutTicks :
    (let s := { waitingIn .waitM0 with env := List.replicate 4 .tick }
     s.errf = false ∧ s.xstate.receiving = true ∧ s.rxfifo = [] ∧ s.tmr = s.timeout ∧ 4 < s.timeout.toNat) ∧
    (let s := { waitingIn .waitM0 with env := List.replicate 5 .tick }
     s.errf = false ∧ s.tmr = s.timeout ∧ 5 = s.timeout.toNat ∧ 1 ≤ 5) := by decide

theorem witness_ArrivalOutsideAWaitOnlyQueues :
    { fresh with env := [.push [0x3E, 0x20]] }.waiting = false ∧ fresh.waiting = false ∧
    { waitingIn .body with rxfifo := [0x41] }.waiting = false := by decide

theorem witness_WireSymbolsAtAWaitingReceiver :
    (waitingIn .waitM0).errf = false ∧ (waitingIn .waitM0).rxfifo = [] ∧ (waitingIn .waitM1).errf = false ∧
    (waitingIn .waitM1).rxfifo = [] ∧ (waitingIn .body).errf = false ∧ (waitingIn .body).rxfifo = [] ∧
    (let s := { waitingIn .body with tlen := 0xFFFFFFFD }
     s.caps.tbuf ≠ some s.tlen.toNat ∧ s.caps.tbuf ≠ some (s.tlen.toNat + 1) ∧ s.tlen.toNat + 2 < 2 ^ 32) ∧
    (let s := { waitingIn .body with tlen := 6, caps := small }
     s.caps.tbuf ≠ some s.tlen.toNat ∧ s.caps.tbuf ≠ some (s.tlen.toNat + 1)) ∧
    (let s := { waitingIn .body with tlen := 7, caps := small }
     s.caps.tbuf = some (s.tlen.toNat + 1) ∧ s.tlen.toNat + 1 < 2 ^ 32) ∧
    (let s := { waitingIn .body with tlen := 8, caps := small }
     s.caps.tbuf = some s.tlen.toNat) := by decide

theorem witness_ReceiveHalfAsAFunction :
    (let s := waitingIn .waitM0
     s.errf = false ∧ s.xstate = .waitM0 ∧ s.rxfifo = [] ∧ s.tlen = 0 ∧ s.caps.tbuf = none) ∧
    (0x09 : Byte) ≠ 0x06 ∧ (0x06 : Byte) ≠ 0x09 ∧ (0x0A : Byte) ∉ responseText ∧ responseText.length < 2 ^ 32 := by
  decide

theorem witness_XcvDeliversOneGoodLine :
    (let s : State := { request 128 with
        program := [.wr 0 0x50], env := [.await .waitM0, .push ([0x06, 0x09] ++ responseText ++ [0x0A] ++ [])] }
     s.errf = false ∧ s.xstate.busy = false ∧ s.stopped = false ∧ s.program[s.pc]? = some (.wr 0 0x50) ∧
       s.caps = Config.unbounded) ∧
    (0x0A : Byte) ∉ responseText ∧ responseText.length < 2 ^ 32 ∧
    (frameParse responseText).toOption.isSome = true := by decide +kernel

theorem witness_IllegalCodesFault :
    (performing (.wr 0 0xFF) fresh).performs (.wr 0 (0xFF : Byte).toNat) ∧ fresh.errf = false ∧
    (0xFF : Byte) ∉ ([0x10, 0x20, 0x21, 0x22, 0x30, 0x31, 0x40, 0x41, 0x50] : List Byte) :=
  ⟨⟨rfl, rfl, rfl, rfl⟩, rfl, by decide⟩

theorem witness_CommandsDoNothingAfterAFault :
    channelOf .xcv = .command ∧ faulted.errf = true ∧ (performing (.wr 0 255) faulted).performs (.wr 0 255) ∧ 255 < 256 :=
  ⟨rfl, rfl, ⟨rfl, rfl, rfl, rfl⟩, by decide⟩

theorem fresh_inv : fresh.Inv where
  pbuf_wf := by decide
  tbuf_wf := by decide
  wbuf_wf := by decide
  rbuf_wf := by decide
  status_reserved := by decide
  fault_state := by decide
  fault_code := by decide
  err_range := by decide
  errinfo_zero := by decide
  port := by decide
  write_index := by decide
  stopped_fault := by decide
  plen_fits := by decide
  tlen_fits := by decide
  wlen_fits := by decide
  rlen_fits := by decide
  draws_made := by decide

theorem faulted_inv : faulted.Inv where
  pbuf_wf := by decide
  tbuf_wf := by decide
  wbuf_wf := by decide
  rbuf_wf := by decide
  status_reserved := by decide
  fault_state := by decide
  fault_code := by decide
  err_range := by decide
  errinfo_zero := by decide
  port := by decide
  write_index := by decide
  stopped_fault := by decide
  plen_fits := by decide
  tlen_fits := by decide
  wlen_fits := by decide
  rlen_fits := by decide
  draws_made := by decide

theorem witness_FaultsArePermanent :
    faulted.Inv ∧ faulted.errf = true ∧ (∀ seed rx rest, faulted.env ≠ .reset seed rx :: rest) ∧
    step faulted = .next faulted :=
  ⟨faulted_inv, rfl, fun _ _ _ h => (by cases h), rfl⟩

theorem witness_InstructionsLeaveTheHostsDataAlone :
    (∃ t, exec .frmEnc (request 128) = .next t) ∧ (∃ t, exec .b64Dec fresh = .next t) := ⟨⟨_, rfl⟩, ⟨_, rfl⟩⟩

/-- The greatest value of a register, and the greatest length its buffer allows. -/
theorem witness_WriteRegisterStoresTheValue :
    (Reg.DATA.writable = true ∧ Reg.DATA ≠ .CMD ∧ 255 < 2 ^ Reg.DATA.width ∧ lengthFits .DATA 255 fresh.caps = true ∧
      (performing (.wr 0x06 255) fresh).performs (.wr Reg.DATA.number 255)) ∧
    (Reg.PLEN.writable = true ∧ 4 < 2 ^ Reg.PLEN.width ∧ lengthFits .PLEN 4 small = true ∧
      (performing (.wr 0x0A 4) { fresh with caps := small }).performs (.wr Reg.PLEN.number 4)) ∧
    ((performing (.wr 0x0B 8) { fresh with caps := small }).performs (.wr 0x0B (8 : Word).toNat) ∧
      fits (8 : Word).toNat small.tbuf = true) ∧
    (performing (.wr 0x07 65535) faulted).performs (.wr 0x07 (65535 : Half).toNat) :=
  ⟨⟨rfl, by decide, by decide, rfl, ⟨rfl, rfl, rfl, rfl⟩⟩, ⟨rfl, by decide, rfl, ⟨rfl, rfl, rfl, rfl⟩⟩,
    ⟨⟨rfl, rfl, rfl, rfl⟩, rfl⟩, ⟨rfl, rfl, rfl, rfl⟩⟩

theorem witness_ReadRegisterChangesNothing :
    Reg.ERR ≠ .CMD ∧ (performing (.rd 0x02) faulted).performs (.rd Reg.ERR.number) ∧
    (performing (.rd 0x1D) fresh).performs (.rd 0x1D) := ⟨by decide, ⟨rfl, rfl, rfl, rfl⟩, ⟨rfl, rfl, rfl, rfl⟩⟩

theorem witness_WriteBufferStoresTheBytes :
    fits (3 + ([0xA0] : List Byte).length) (capacityOf small .PBUF) = true ∧
    (performing (.wrb .PBUF 3 [0xA0]) { fresh with caps := small }).performs (.wrb .PBUF 3 [0xA0]) ∧
    (performing (.wrb .TBUF 0 []) fresh).performs (.wrb .TBUF 0 []) :=
  ⟨rfl, ⟨rfl, rfl, rfl, rfl⟩, ⟨rfl, rfl, rfl, rfl⟩⟩

theorem witness_ReadBufferReturnsTheBytes :
    fits (0 + 1) (capacityOf Config.unbounded .PBUF) = true ∧ 0 + 1 ≤ (request 128).lengthOf .PBUF ∧
    (performing (.rdb .PBUF 0 1) (request 128)).performs (.rdb .PBUF 0 1) ∧
    (request 128).lengthOf .PBUF < 0 + 2 ∧ (performing (.rdb .PBUF 0 2) (request 128)).performs (.rdb .PBUF 0 2) :=
  ⟨rfl, by decide, ⟨rfl, rfl, rfl, rfl⟩, by decide, ⟨rfl, rfl, rfl, rfl⟩⟩

theorem witness_RefusedBusOperations :
    (performing (.rd 0x1E) fresh).performs (.rd 0x1E) ∧ (performing (.wr 0x0B 5) fresh).performs (.wr 0x0B 5) ∧
    (performing (.wrb .WBUF 0 [0]) fresh).performs (.wrb .WBUF 0 [0]) ∧
    (performing (.rdb .RBUF 4 1) { fresh with caps := small }).performs (.rdb .RBUF 4 1) :=
  ⟨⟨rfl, rfl, rfl, rfl⟩, ⟨rfl, rfl, rfl, rfl⟩, ⟨rfl, rfl, rfl, rfl⟩, ⟨rfl, rfl, rfl, rfl⟩⟩

theorem witness_StatusAndFlagsReadAsWired : (performing (.wr 0x11 1) fresh).performs (.wr 0x11 1) :=
  ⟨rfl, rfl, rfl, rfl⟩

theorem witness_HostIsBlockedDuringAnExchange :
    (let s := waitingIn .waitM0
     s.xstate.busy = true ∧ (∀ seed rx rest, s.env ≠ .reset seed rx :: rest) ∧ step s = .next s) :=
  ⟨rfl, fun _ _ _ h => (by cases h), rfl⟩

theorem witness_ResetLeavesAnyState :
    { faulted with env := [.reset 0xFE [0x3E]] }.env = [.reset 0xFE [0x3E]] := rfl

theorem witness_EveryStepKeepsTheInvariant : fresh.Inv ∧ step fresh = .next fresh := ⟨fresh_inv, rfl⟩

theorem witness_TransmittedBytesStayTransmitted :
    (∀ seed rx rest, fresh.env ≠ .reset seed rx :: rest) ∧ step fresh = .next fresh :=
  ⟨fun _ _ _ h => (by cases h), rfl⟩

/-- The operations of R250, written out, for an empty request and a response of one byte. -/
theorem test_exchange_operations :
    requestResponseOps true 2 1 0x42 1 [] 1 =
      [.wr 0x00 0x10, .rd 0x04, .wr 0x10 2, .wr 0x13 1, .wr 0x14 0x42, .wr 0x15 1, .wrb .PBUF 0 [], .wr 0x0A 0,
        .wr 0x00 0x40, .rd 0x01, .wr 0x00 0x50, .rd 0x1C, .rd 0x18, .rd 0x1B, .rd 0x0E, .rdb .RBUF 10 1] := by decide

/-- What the reads of a response return is what the host decides by. -/
theorem test_reading :
    readingOf [.reg 0x42, .reg 3, .reg 1, .reg 1, .bytes [0xA0]] = some { seq := 0x42, op := 3, group := 1, body := [0xA0] } :=
  rfl

/-- An upload session at offset 0 of a three-byte image (V-F1 and R265 send it in one chunk). -/
def session (attempted : Nat) : Session :=
  { image := [1, 2, 3], offset := 0, attempted := attempted, seq := 0x42, announced := false }

/-- A shrink at an overflow of one byte, whatever the margin is (the attempted length goes down to 1); a frame that is
sent; the two kinds of chunk; the three ways a response is correlated. -/
theorem witness_UploadShrinksAndFollowsTheDevice :
    (∃ v, afterEncode (session (shrinkMargin + 1)) { fresh with status := 0x02, wlen := 1 } = .shrinking v) ∧
    fresh.mtuovf = false ∧
    ((session 3).offset < 2 ^ 32 ∧ (session 3).image.length < 2 ^ 32 ∧ (session 3).offset = 0 ∧
      (session 3).announced = false) ∧
    { session 3 with offset := 1 }.offset ≠ 0 ∧ 2 ^ 32 ≤ { session 3 with offset := 2 ^ 32 }.offset ∧
    (let r : Reading := { seq := 0x42, op := 3, group := Config.groupImage.toNat, body := [] }
     r.seq ≠ (0x41 : Byte).toNat ∧ (r.seq = (0x42 : Byte).toNat ∧ r.op ≠ (1 : Byte).toNat) ∧
       r.op = (3 : Byte).toNat ∧ r.group = Config.groupImage.toNat) ∧
    (64 : Nat) ≠ (session 3).offset ∧ (64 : Nat) ≠ (session 3).image.length ∧
    (session 3).offset ≠ (session 3).image.length ∧ (5 : Nat) ≠ 0 := by
  have key : afterEncode (session (shrinkMargin + 1)) { fresh with status := 0x02, wlen := 1 } =
      .shrinking (session (shrinkMargin + 1 - shrinkBy 1)) := by
    simp [afterEncode, shrinkBy, State.mtuovf, fresh, State.resetWith, session]
  exact ⟨⟨_, key⟩, by decide, by decide, by decide, by decide, ⟨by decide, by decide, rfl, rfl⟩, by decide, by decide,
    by decide, by decide⟩

end Sys2Proof.Tests
end

section
/-! PROOFS. The state family: what a step can do, said once (`step_move`); reset and every move keep the invariant; the
transmitted bytes; the timer; the refused bus operations. -/

namespace Sys2Proof.Machine

/-! ## Flags and reset values (10_state.md R22, R39) -/

/-- The host reads `STATUS` as a number: its two flags, with their weights (R22). -/
theorem readReg_status (s : State) :
    readReg .STATUS s = (if s.errf then 1 else 0) + (if s.mtuovf then 2 else 0) := by
  have hread : readReg .STATUS s = (statusOf s.errf s.mtuovf).toNat :=
    congrArg BitVec.toNat (readStatus_flags s.status)
  rw [hread]
  cases s.errf <;> cases s.mtuovf <;> rfl

@[simp] theorem errf_resetWith (seed : Byte) (rx : List Byte) (draw : Nat) (caps : Capacities) :
    (State.resetWith seed rx draw caps).errf = false := by
  simp [State.errf, State.resetWith]

@[simp] theorem mtuovf_resetWith (seed : Byte) (rx : List Byte) (draw : Nat) (caps : Capacities) :
    (State.resetWith seed rx draw caps).mtuovf = false := by
  simp [State.mtuovf, State.resetWith]

/-- Settles O55: but for the two flags of `STATUS`, every field of the table is a literal of the reset state (R39). -/
theorem resetValues : Obligations.ResetValues := by
  rintro s rfl
  have herrf : State.reset.errf = false := errf_resetWith _ _ _ _
  have hmtuovf : State.reset.mtuovf = false := mtuovf_resetWith _ _ _ _
  simp only [herrf, hmtuovf]
  simp [State.reset, State.resetWith, readReg]

/-! ## Refusals (10_state.md R41) -/

/-- The register table read both ways (R21). -/
theorem regOfNumber_eq_some_iff {n : Nat} {r : Reg} : regOfNumber n = some r ↔ r.number = n := by
  constructor
  · intro h
    unfold regOfNumber at h
    split at h <;> cases h <;> rfl
  · rintro rfl
    cases r <;> rfl

/-- The highest register number is 0x1D (R21). -/
theorem regOfNumber_eq_none {n : Nat} (hn : 0x1E ≤ n) : regOfNumber n = none := by
  cases h : regOfNumber n with
  | none => rfl
  | some r =>
    have hlt : r.number < 0x1E := by cases r <;> decide
    have hnum := regOfNumber_eq_some_iff.1 h
    omega

/-- A bus operation that is not refused has a next state. -/
theorem busOp_next {s : State} {op : BusOp} (h : busRefusal s.caps op = none) : ∃ t, busOp op s = .next t := by
  unfold busOp
  rw [h]
  cases op with
  | wr n v =>
    by_cases hn : n = Reg.CMD.number
    · simpa [hn] using issueCommand_next (BitVec.ofNat 8 v) s
    · simp [hn]
  | rd n => exact ⟨_, rfl⟩
  | wrb b off bytes => exact ⟨_, rfl⟩
  | rdb b off n => exact ⟨_, rfl⟩

theorem busOp_refused {s : State} {op : BusOp} {r : Refusal} (h : busRefusal s.caps op = some r) :
    busOp op s = .refused r := by
  simp [busOp, h]

/-- The step of a host that performs an operation is refused exactly when R41 gives a reason. -/
theorem State.performs.refused_iff {s : State} {op : BusOp} (h : s.performs op) :
    (∃ r, step s = .refused r) ↔ busRefusal s.caps op ≠ none := by
  rw [h.step_eq]
  cases hr : busRefusal s.caps op with
  | none =>
    obtain ⟨t, ht⟩ := busOp_next hr
    simp [ht]
  | some r => simp [busOp_refused hr]

/-- A write is accepted exactly when its number is that of a register marked W or RW, the value fits the width, and a
length fits its buffer (R41, R241). -/
theorem writeRefusal_eq_none_iff {caps : Capacities} {n v : Nat} :
    writeRefusal caps n v = none ↔
      ∃ r : Reg, r.number = n ∧ r.writable = true ∧ v < 2 ^ r.width ∧ lengthFits r v caps = true := by
  simp only [← regOfNumber_eq_some_iff]
  unfold writeRefusal
  cases regOfNumber n with
  | none => simp
  | some r =>
    cases hw : r.writable with
    | false => simp [hw]
    | true =>
      by_cases hv : v < 2 ^ r.width
      · simp [hw, hv, Nat.not_le.2 hv]
      · simp [hw, hv, Nat.not_lt.1 hv]

/-- Settles O53: by `readStatus_flags`, and because no register marked W has number 0x11. -/
theorem statusAndFlagsReadAsWired : Obligations.StatusAndFlagsReadAsWired := by
  refine ⟨readReg_status, fun _ => rfl, fun s v h => h.refused_iff.2 ?_⟩
  have hflags : regOfNumber 0x11 = some .TXH_FLAGS := rfl
  simp [busRefusal, writeRefusal, hflags, Reg.writable]

/-- The numbers a read is refused for: `CMD`, and those that name no register (R21, R41). -/
theorem readRefusal_ne_none_iff (n : Nat) :
    readRefusal n ≠ none ↔ n ∈ [0x00, 0x0F, 0x16, 0x17] ∨ 0x1E ≤ n := by
  by_cases hn : n < 0x1E
  · revert n
    decide
  · have hge : 0x1E ≤ n := Nat.le_of_not_lt hn
    simp [readRefusal, regOfNumber_eq_none hge, hge]

/-- The writable registers by number, width and capacity (R21, R41). -/
theorem exists_writable_iff {caps : Capacities} {n v : Nat} :
    (∃ r : Reg, r.number = n ∧ r.writable = true ∧ v < 2 ^ r.width ∧ lengthFits r v caps = true) ↔
      (n ∈ [0x00, 0x06, 0x10, 0x14, 0x15] ∧ v < 2 ^ 8) ∨ (n ∈ [0x07, 0x13] ∧ v < 2 ^ 16) ∨
        (n ∈ [0x08, 0x09] ∧ v < 2 ^ 32) ∨ (n = 0x0A ∧ v < 2 ^ 16 ∧ fits v caps.pbufMax = true) ∨
        (n = 0x0B ∧ v < 2 ^ 32 ∧ fits v caps.tbuf = true) := by
  constructor
  · rintro ⟨r, rfl, hw, hv, hl⟩
    cases r <;> cases hw <;> simp_all [Reg.number, Reg.width, lengthFits]
  · simp only [List.mem_cons, List.not_mem_nil, or_false]
    rintro (⟨rfl | rfl | rfl | rfl | rfl, hv⟩ | ⟨rfl | rfl, hv⟩ | ⟨rfl | rfl, hv⟩ | ⟨rfl, hv, hl⟩ | ⟨rfl, hv, hl⟩)
    · exact ⟨.CMD, rfl, rfl, hv, rfl⟩
    · exact ⟨.DATA, rfl, rfl, hv, rfl⟩
    · exact ⟨.TXH_OP, rfl, rfl, hv, rfl⟩
    · exact ⟨.TXH_SEQ, rfl, rfl, hv, rfl⟩
    · exact ⟨.TXH_CMD, rfl, rfl, hv, rfl⟩
    · exact ⟨.LINELEN, rfl, rfl, hv, rfl⟩
    · exact ⟨.TXH_GROUP, rfl, rfl, hv, rfl⟩
    · exact ⟨.MTU, rfl, rfl, hv, rfl⟩
    · exact ⟨.TIMEOUT, rfl, rfl, hv, rfl⟩
    · exact ⟨.PLEN, rfl, rfl, hv, hl⟩
    · exact ⟨.TLEN, rfl, rfl, hv, hl⟩

/-- Settles O52: each operation by its refusal test, registers through the register table. -/
theorem refusedBusOperations : Obligations.RefusedBusOperations := by
  refine ⟨fun s n h => ?_, fun s n v h => ?_, fun s b off bytes h => ?_, fun s b off n h => ?_⟩
  · exact h.refused_iff.trans (readRefusal_ne_none_iff n)
  · exact h.refused_iff.trans (not_congr (writeRefusal_eq_none_iff.trans exists_writable_iff))
  · rw [h.refused_iff]
    cases b <;> simp [busRefusal, Buf.writable]
  · rw [h.refused_iff]
    simp [busRefusal]

/-! ## What one instruction and one bus operation can do (30_encoding.md R91, R94, 46_host_protocol.md R241 to R244) -/

/-- What an instruction makes of the state when it runs: a command while no fault has been taken, a symbol always. -/
def instrEffect : Instr → State → State
  | .seqNext => nextId
  | .crcInit => fun s => { s with crc := 0 }
  | .crcUpd => fun s => { s with crc := crcStep s.crc s.data }
  | .crcBuf => fun s => { s with crc := crcFrom s.crc (payloadOperand s) }
  | .b64Enc => encodeText
  | .b64Dec => decodeText
  | .frmEnc => encodeFrame
  | .frmDec => decodeFrameWith faultFrmDec
  | .xcv => fun s => { s with xstate := .opening }
  | .markStart => arriveBytes startMarker
  | .markCont => arriveBytes contMarker
  | .term => arriveBytes [terminator]

theorem exec_command {i : Instr} (hi : channelOf i = .command) (s : State) : exec i s = command s (instrEffect i) := by
  cases i <;> first | rfl | cases hi

theorem exec_symbol {i : Instr} (hi : channelOf i = .wire) (s : State) : exec i s = .next (instrEffect i s) := by
  cases i <;> first | rfl | cases hi

/-- Everything an instruction can do: a command after a fault does nothing (R94), any other has its effect. -/
theorem exec_cases {i : Instr} {s t : State} (h : exec i s = .next t) :
    (channelOf i = .command ∧ s.errf = true ∧ t = s) ∨
      ((channelOf i = .command → s.errf = false) ∧ t = instrEffect i s) := by
  cases hi : channelOf i with
  | command =>
    rcases command_cases (exec_command hi s ▸ h) with ⟨hfault, ht⟩ | ⟨hlive, ht⟩
    · exact .inl ⟨rfl, hfault, ht⟩
    · exact .inr ⟨fun _ => hlive, ht⟩
  | wire => exact .inr ⟨nofun, (Host.Outcome.next.inj (exec_symbol hi s ▸ h)).symm⟩

/-- Everything the issue of a command code can do: nothing after a fault (R282), else the code is stored and its command
runs, or it is illegal (R94, R96). -/
theorem issueCommand_cases {code : Byte} {s t : State} (h : issueCommand code s = .next t) :
    (s.errf = true ∧ t = s) ∨
      (s.errf = false ∧ ∃ i, decodeCommand code = .ok i ∧ exec i { s with cmd := code } = .next t) ∨
      (s.errf = false ∧ t = illegalCommand code { s with cmd := code }) := by
  unfold issueCommand at h
  cases he : s.errf with
  | true =>
    have ht : s = t := by simpa [he] using h
    exact .inl ⟨rfl, ht.symm⟩
  | false =>
    cases hd : decodeCommand code with
    | ok i => exact .inr (.inl ⟨rfl, i, rfl, by simpa [he, hd] using h⟩)
    | error e =>
      have ht : illegalCommand code { s with cmd := code } = t := by simpa [he, hd] using h
      exact .inr (.inr ⟨rfl, ht.symm⟩)

/-- Everything a bus operation that is not refused can do (R241 to R244). -/
theorem busOp_cases {op : BusOp} {s t : State} (h : busOp op s = .next t) :
    (∃ v, op = .wr Reg.CMD.number v ∧ issueCommand (BitVec.ofNat 8 v) s = .next t) ∨
      (∃ r v, op = .wr (Reg.number r) v ∧ lengthFits r v s.caps = true ∧ t = writeReg r v s) ∨
      (∃ r, op = .rd (Reg.number r) ∧ t = returnToHost (.reg (readReg r s)) s) ∨
      (∃ b off bytes, op = .wrb b off bytes ∧ t = busWriteBytes b off bytes s) ∨
      (∃ b off n, op = .rdb b off n ∧ t = busReadBytes b off n s) := by
  cases hr : busRefusal s.caps op with
  | some r => rw [busOp_refused hr] at h; cases h
  | none =>
    unfold busOp at h
    rw [hr] at h
    cases op with
    | wr n v =>
      by_cases hn : n = Reg.CMD.number
      · exact .inl ⟨v, by rw [hn], by simpa [hn] using h⟩
      · obtain ⟨r, hnum, -, -, hl⟩ := writeRefusal_eq_none_iff.1 hr
        have ht : busWrite n v s = t := by simpa [hn] using h
        rw [busWrite, regOfNumber_eq_some_iff.2 hnum] at ht
        exact .inr (.inl ⟨r, v, by rw [hnum], hl, ht.symm⟩)
    | rd n =>
      have ht : t = busRead n s := (Host.Outcome.next.inj h).symm
      cases hreg : regOfNumber n with
      | none => simp [busRefusal, readRefusal, hreg] at hr
      | some r =>
        rw [busRead, hreg] at ht
        exact .inr (.inr (.inl ⟨r, by rw [regOfNumber_eq_some_iff.1 hreg], ht⟩))
    | wrb b off bytes => exact .inr (.inr (.inr (.inl ⟨b, off, bytes, rfl, (Host.Outcome.next.inj h).symm⟩)))
    | rdb b off n => exact .inr (.inr (.inr (.inr ⟨b, off, n, rfl, (Host.Outcome.next.inj h).symm⟩)))

/-! ## What one step can do (00_scope.md R6; log 9) -/

/-- One agent's move from a state whose script entry, if the move is one of the script's, is already used up. A reset is
no move. -/
inductive Move (s : State) : State → Prop where
  /-- The host has ended or stopped, or the script holds on a state (`await`). -/
  | rest : Move s s
  /-- The host performs its next operation. -/
  | host {op : BusOp} {t : State} (idle : s.xstate.busy = false) (running : s.stopped = false)
      (here : s.program[s.pc]? = some op) (performed : busOp op s = .next t) : Move s (operationDone s t)
  /-- The block takes its step of `XCV`. -/
  | exchange (busy : s.xstate.busy = true) : Move s (operationDone s (xcvStep s))
  /-- The remote device sends bytes. -/
  | arrival (bytes : List Byte) : Move s (exchangeDone s (arriveBytes bytes s))
  /-- The open fails. -/
  | openFails (opening : s.xstate = .opening) : Move s (exchangeDone s (failOpen s))
  /-- The write of the next byte fails. -/
  | writeFails (writing : s.xstate = .write) (unsent : s.widx.toNat < s.wlen.toNat) :
      Move s (exchangeDone s (failWrite s))
  /-- A read fails. -/
  | readFails (waiting : s.waiting = true) : Move s (exchangeDone s (failRead s))
  /-- The timeout fires. -/
  | timesOut (waiting : s.waiting = true) : Move s (exchangeDone s (fireTimeout s))
  /-- A second passes. -/
  | tick : Move s (exchangeDone s (tickTimer s))

theorem hostTurn_move {s t : State} (idle : s.xstate.busy = false) (h : hostTurn s = .next t) : Move s t := by
  unfold hostTurn at h
  cases hs : s.stopped with
  | true =>
    obtain rfl : s = t := by simpa [hs] using h
    exact .rest
  | false =>
    cases hp : s.program[s.pc]? with
    | none =>
      obtain rfl : s = t := by simpa [hs, hp] using h
      exact .rest
    | some op =>
      cases hop : busOp op s with
      | next u =>
        obtain rfl : operationDone s u = t := by simpa [hs, hp, hop] using h
        exact .host idle hs hp hop
      | fault r => simp [hs, hp, hop] at h
      | refused r => simp [hs, hp, hop] at h

theorem machineTurn_move {s t : State} (h : machineTurn s = .next t) : Move s t := by
  cases hb : s.xstate.busy with
  | true =>
    rw [machineTurn_busy hb] at h
    obtain rfl := Host.Outcome.next.inj h
    exact .exchange hb
  | false => exact hostTurn_move hb (machineTurn_host hb ▸ h)

/-- An entry of the script that is possible is a move, or the reset. -/
theorem envTurn_move {s t : State} {e : EnvEvent} (he : e.enabled s = true) (h : envTurn e s = .next t) :
    Move s t ∨ ∃ seed rx, e = .reset seed rx ∧ t = resetBy seed rx s := by
  cases e with
  | proceed => exact .inl (machineTurn_move h)
  | push bytes =>
    obtain rfl := Host.Outcome.next.inj ((deviceTurn_eq bytes s).symm.trans h)
    exact .inl (.arrival bytes)
  | await x =>
    obtain rfl := Host.Outcome.next.inj h
    exact .inl .rest
  | openFail =>
    obtain rfl := Host.Outcome.next.inj h
    exact .inl (.openFails (of_decide_eq_true he))
  | writeFail n =>
    obtain rfl := Host.Outcome.next.inj h
    obtain ⟨⟨hx, hw⟩, -⟩ : (s.xstate = .write ∧ s.widx.toNat < s.wlen.toNat) ∧ s.widx.toNat = n := by
      simpa [EnvEvent.enabled] using he
    exact .inl (.writeFails hx hw)
  | readFail =>
    obtain rfl := Host.Outcome.next.inj h
    exact .inl (.readFails he)
  | timeout =>
    obtain rfl := Host.Outcome.next.inj h
    exact .inl (.timesOut he)
  | tick =>
    obtain rfl := Host.Outcome.next.inj h
    exact .inl .tick
  | reset seed rx =>
    obtain rfl := Host.Outcome.next.inj h
    exact .inr ⟨seed, rx, rfl, rfl⟩

/-- Whether an entry of the script is possible does not depend on the script. -/
theorem EnvEvent.enabled_env (e : EnvEvent) (s : State) (env : List EnvEvent) :
    e.enabled { s with env := env } = e.enabled s := by
  cases e <;> rfl

/-- Everything a step can do: one agent moves, or the script's next entry is a reset. -/
theorem step_move {s t : State} (h : step s = .next t) :
    (∃ env, Move { s with env := env } t) ∨
      ∃ seed rx rest, s.env = .reset seed rx :: rest ∧ t = resetBy seed rx { s with env := rest } := by
  cases henv : s.env with
  | nil => exact .inl ⟨s.env, machineTurn_move (step_eq_machineTurn henv ▸ h)⟩
  | cons e rest =>
    cases he : e.enabled s with
    | false => exact .inl ⟨s.env, machineTurn_move (step_not_enabled henv he ▸ h)⟩
    | true =>
      rw [step_eq_envTurn henv he] at h
      rcases envTurn_move ((e.enabled_env s rest).trans he) h with hm | ⟨seed, rx, rfl, rfl⟩
      · exact .inl ⟨rest, hm⟩
      · exact .inr ⟨seed, rx, rest, rfl, rfl⟩

/-! ## The fault entry makes the invariant (60_exceptions.md R280)

The clauses of `State.Inv` on `ERR`, `ERRF`, `XSTATE`, `PORT_OPEN` and the outputs' lengths hold after any fault; the
others are those the unspecified outputs of R40 must keep. -/

/-- The clauses of `State.Inv` that a fault takes over from the state it is raised in. -/
structure State.Faultable (s : State) : Prop where
  pbuf_wf : s.pbuf.wf
  tbuf_wf : s.tbuf.wf
  wbuf_wf : s.wbuf.wf
  rbuf_wf : s.rbuf.wf
  status_reserved : s.status &&& 0xFC = 0
  plen_fits : fits s.plen.toNat s.caps.pbufMax = true
  draws_made : s.pbuf.gen < s.draws ∧ s.tbuf.gen < s.draws ∧ s.wbuf.gen < s.draws ∧ s.rbuf.gen < s.draws

theorem State.Inv.faultable {s : State} (h : s.Inv) : s.Faultable := { h with }

theorem State.Faultable.scrambleText {s : State} (h : s.Faultable) : (scrambleText s).Faultable :=
  { h with
    tbuf_wf := Memory.unspecified_wf _
    draws_made := by have hd := h.draws_made; simp; omega }

theorem State.Faultable.scrambleRaw {s : State} (h : s.Faultable) : (scrambleRaw s).Faultable :=
  { h with
    rbuf_wf := Memory.unspecified_wf _
    draws_made := by have hd := h.draws_made; simp; omega }

theorem State.Faultable.scrambleHeader {s : State} (h : s.Faultable) : (scrambleHeader s).Faultable :=
  { h with
    draws_made := by have hd := h.draws_made; simp; omega }

theorem State.Faultable.scrambleEncoded {s : State} (h : s.Faultable) : (scrambleEncoded s).Faultable :=
  { h with
    wbuf_wf := Memory.unspecified_wf _
    status_reserved := putMtuovf_reserved _ _ h.status_reserved
    draws_made := by have hd := h.draws_made; simp; omega }

/-- Only `ERR_PAYLOAD`, which the block never raises, has the number 10 (R271). -/
theorem FaultCode.code_ne_ten {c : FaultCode} (hc : c ≠ .payload) : c.code.toNat ≠ 10 := by
  cases c <;> first | exact absurd rfl hc | decide

theorem State.Faultable.raiseFault_inv {s : State} (h : s.Faultable) {c : FaultCode} (hc : c ≠ .payload)
    (info : Half) : (raiseFault c info s).Inv :=
  { h with
    status_reserved := raiseErrf_reserved _ h.status_reserved
    fault_state := by simp
    fault_code := by simpa using c.code_range.1
    err_range := ⟨c.code_range.2, FaultCode.code_ne_ten hc⟩
    errinfo_zero := fun hz => absurd hz c.code_range.1
    port := rfl
    write_index := fun hw => nomatch hw
    stopped_fault := fun _ => errf_raiseFault c info s
    tlen_fits := fun hlive => by simp at hlive
    wlen_fits := fun hlive => by simp at hlive
    rlen_fits := fun hlive => by simp at hlive }

section
variable {s : State} (h : s.Inv) {c : FaultCode} (hc : c ≠ .payload) (info : Half)
include h hc

theorem faultB64Enc_inv : (faultB64Enc c info s).Inv := h.faultable.scrambleText.raiseFault_inv hc info
theorem faultB64Dec_inv : (faultB64Dec c info s).Inv := h.faultable.scrambleRaw.raiseFault_inv hc info
theorem faultFrmEnc_inv : (faultFrmEnc c info s).Inv := h.faultable.scrambleEncoded.raiseFault_inv hc info
theorem faultFrmDec_inv : (faultFrmDec c info s).Inv :=
  h.faultable.scrambleRaw.scrambleHeader.raiseFault_inv hc info
theorem faultXcv_inv : (faultXcv c info s).Inv :=
  h.faultable.scrambleText.scrambleRaw.scrambleHeader.raiseFault_inv hc info

end

theorem fits_zero (c : Option Nat) : fits 0 c = true := by cases c <;> simp [fits]

/-! ## Reset makes the invariant (10_state.md R39, R301) -/

theorem resetWith_inv (seed : Byte) (rx : List Byte) (draw : Nat) (caps : Capacities) :
    (State.resetWith seed rx draw caps).Inv where
  pbuf_wf := List.Pairwise.nil
  tbuf_wf := List.Pairwise.nil
  wbuf_wf := List.Pairwise.nil
  rbuf_wf := List.Pairwise.nil
  status_reserved := BitVec.zero_and
  fault_state := ⟨fun hf => by simp at hf, fun hx => nomatch hx⟩
  fault_code := ⟨fun hf => by simp at hf, fun he => absurd rfl he⟩
  err_range := by simp [State.resetWith]
  errinfo_zero := fun _ => rfl
  port := rfl
  write_index := fun hw => nomatch hw
  stopped_fault := fun hs => nomatch hs
  plen_fits := fits_zero _
  tlen_fits := fun _ => fits_zero _
  wlen_fits := fun _ => fits_zero _
  rlen_fits := fun _ => fits_zero _
  draws_made := by simp [State.resetWith]

theorem resetBy_inv (seed : Byte) (rx : List Byte) (s : State) : (resetBy seed rx s).Inv :=
  { resetWith_inv seed rx s.draws s.caps with }

/-- Settles O57. -/
theorem resetSatisfiesTheInvariant : Obligations.ResetSatisfiesTheInvariant :=
  resetWith_inv _ _ _ _

/-! ## The receiver and the transmitter keep the invariant (45_transceive.md R203 to R210) -/

theorem State.Inv.live_of_ne_fault {s : State} (h : s.Inv) (hx : s.xstate ≠ .fault) : s.errf = false := by
  simpa using fun he => hx (h.fault_state.1 he)

/-- A change of `XSTATE` that is no fault keeps the invariant when the device is opened or closed with it. -/
theorem State.Inv.setXstate {s : State} (h : s.Inv) (hlive : s.errf = false) {x : XState} {p : Bool}
    (hx : x ≠ .fault) (hport : p = x.portIsOpen) (hwrite : x = .write → s.widx.toNat ≤ s.wlen.toNat) :
    State.Inv { s with xstate := x, portOpen := p } :=
  { h with
    fault_state := ⟨fun he => absurd (hlive.symm.trans he) Bool.false_ne_true, fun hf => absurd hf hx⟩
    port := hport
    write_index := hwrite }

theorem beginWait_inv {s : State} (h : s.Inv) : (beginWait s).Inv := by
  unfold beginWait
  split
  · exact { h with }
  · exact h

theorem openStep_inv {s : State} (h : s.Inv) (hx : s.xstate = .opening) : (openStep s).Inv :=
  h.setXstate (h.live_of_ne_fault (by simp [hx])) nofun rfl nofun

theorem flushStep_inv {s : State} (h : s.Inv) (hx : s.xstate = .flush) : (flushStep s).Inv := by
  have hu : State.Inv { s with rxfifo := [], widx := 0 } := { h with write_index := fun _ => Nat.zero_le _ }
  have hport : s.portOpen = XState.portIsOpen .write := by rw [h.port, hx]; rfl
  exact hu.setXstate (h.live_of_ne_fault (by simp [hx])) nofun hport fun _ => Nat.zero_le _

theorem writeStep_inv {s : State} (h : s.Inv) (hx : s.xstate = .write) : (writeStep s).Inv := by
  unfold writeStep
  split
  next hlt =>
    have hnext : (s.widx + 1).toNat ≤ s.wlen.toNat := by bv_omega
    exact { h with write_index := fun _ => hnext }
  next =>
    have hu : State.Inv { s with tlen := 0 } := { h with tlen_fits := fun _ => fits_zero _ }
    have hport : s.portOpen = XState.portIsOpen .waitM0 := by rw [h.port, hx]; rfl
    exact beginWait_inv (hu.setXstate (h.live_of_ne_fault (by simp [hx])) nofun hport nofun)

/-- A content byte for which there is room leaves `TLEN` within the capacity; a `TLEN` that passes its 32 bits does so
only below a capacity no register value exceeds (R208; log 7). -/
theorem appendText_inv {s : State} (h : s.Inv) (hlive : s.errf = false) (hroom : s.caps.tbuf ≠ some s.tlen.toNat)
    (b : Byte) : (appendText b s).Inv := by
  have hwf : (s.tbuf.write s.tlen.toNat [b]).wf := Memory.write_wf _ _ _ h.tbuf_wf
  have hfits : fits (s.tlen.toNat + 1) s.caps.tbuf = true := by
    have hnow := h.tlen_fits hlive
    cases hc : s.caps.tbuf with
    | none => rfl
    | some cap =>
      simp only [hc, fits_some, decide_eq_true_eq, ne_eq, Option.some.injEq] at hnow hroom ⊢
      omega
  unfold appendText
  dsimp only
  split
  next hlt =>
    exact { h with
      tbuf_wf := hwf
      tlen_fits := fun _ => fits_mono hfits (by bv_omega) }
  next hmax =>
    exact { h with
      tbuf_wf := hwf
      tlen_fits := fun _ => fits_mono hfits (by have := (Config.freeValue 32 s.draws).isLt; dsimp only; omega)
      draws_made := by have hd := h.draws_made; simp; omega }

/-- The receiver, whatever byte it takes in whatever state (R206 to R209). -/
theorem takeByte_inv {s : State} (h : s.Inv) (b : Byte) : (takeByte b s).Inv := by
  cases hx : s.xstate with
  | waitM0 =>
    have hport : s.portOpen = XState.portIsOpen .waitM1 := by rw [h.port, hx]; rfl
    simp only [takeByte, hx]
    split
    · exact beginWait_inv (h.setXstate (h.live_of_ne_fault (by simp [hx])) nofun hport nofun)
    · exact faultXcv_inv h (by decide) _
  | waitM1 =>
    have hport : s.portOpen = XState.portIsOpen .body := by rw [h.port, hx]; rfl
    simp only [takeByte, hx]
    split
    · exact beginWait_inv (h.setXstate (h.live_of_ne_fault (by simp [hx])) nofun hport nofun)
    · exact faultXcv_inv h (by decide) _
  | body =>
    have hlive := h.live_of_ne_fault (by simp [hx])
    simp only [takeByte, hx]
    split
    · exact h.setXstate hlive nofun rfl nofun
    · split
      · exact faultXcv_inv h (by decide) _
      next hroom => exact beginWait_inv (appendText_inv h hlive hroom b)
  | _ => simpa only [takeByte, hx] using h

theorem receiveStep_inv {s : State} (h : s.Inv) : (receiveStep s).Inv := by
  unfold receiveStep
  split
  · exact h
  next b rest _ => exact takeByte_inv (s := { s with rxfifo := rest }) { h with } b

theorem arriveByte_inv {s : State} (h : s.Inv) (b : Byte) : (arriveByte b s).Inv := by
  have hu : State.Inv { s with rxfifo := s.rxfifo ++ [b] } := { h with }
  unfold arriveByte
  dsimp only
  split
  · exact receiveStep_inv hu
  · exact hu

theorem arriveBytes_inv {s : State} (h : s.Inv) (bytes : List Byte) : (arriveBytes bytes s).Inv := by
  induction bytes generalizing s with
  | nil => exact h
  | cons b bs ih => exact ih (arriveByte_inv h b)

/-! ## Encoding and decoding keep the invariant (42_base64.md to 44_frame_decode.md) -/

/-- A length that fits still fits when a register of `w` bits holds it. -/
theorem fits_ofNat {n : Nat} {cap : Option Nat} (h : fits n cap = true) (w : Nat) :
    fits (BitVec.ofNat w n).toNat cap = true :=
  fits_mono h (BitVec.toNat_ofNat .. ▸ Nat.mod_le _ _)

/-- The codes of the checks on a raw frame (R181 to R184). -/
theorem rawParse_error_code {raw : List Byte} {c : FaultCode} {info : Half} (h : rawParse raw = .error (c, info)) :
    c ∈ [FaultCode.short, .len, .crc] := by
  unfold rawParse at h
  split at h
  · cases h; decide
  · split at h
    · cases h; decide
    · split at h
      · cases h; decide
      · cases h

/-- No check of a frame raises `ERR_PAYLOAD` (R181, R192). -/
theorem frameParse_ne_payload {t : List Byte} {c : FaultCode} {info : Half} (h : frameParse t = .error (c, info)) :
    c ≠ .payload := by
  unfold frameParse at h
  split at h
  · cases h; decide
  · rintro rfl
    exact absurd (rawParse_error_code h) (by decide)

theorem deliverFrame_inv {s : State} (h : s.Inv) {f : ParsedFrame} (hfit : fits f.raw.length s.caps.rbuf = true) :
    (deliverFrame f s).Inv :=
  { h with
    rbuf_wf := Memory.write_wf _ _ _ h.rbuf_wf
    rlen_fits := fun _ => fits_ofNat hfit 32 }

theorem decodeFrameWith_inv {s : State} (h : s.Inv) {onFault : FaultCode → Half → State → State}
    (hfault : ∀ {c : FaultCode} (info : Half), c ≠ .payload → (onFault c info s).Inv) :
    (decodeFrameWith onFault s).Inv := by
  unfold decodeFrameWith
  split
  next hp => exact hfault _ (frameParse_ne_payload hp)
  next =>
    split
    next hfit => exact deliverFrame_inv h hfit
    next => exact hfault _ nofun

theorem encodeText_inv {s : State} (h : s.Inv) : (encodeText s).Inv := by
  unfold encodeText
  dsimp only
  split
  next hfit =>
    exact { h with
      tbuf_wf := Memory.write_wf _ _ _ (Memory.unspecified_wf _)
      tlen_fits := fun _ => fits_ofNat hfit 32
      draws_made := by have hd := h.draws_made; simp; omega }
  next => exact faultB64Enc_inv h (by decide) _

theorem decodeText_inv {s : State} (h : s.Inv) : (decodeText s).Inv := by
  unfold decodeText
  split
  · exact faultB64Dec_inv h (by decide) _
  · split
    next hfit =>
      exact { h with
        rbuf_wf := Memory.write_wf _ _ _ h.rbuf_wf
        rlen_fits := fun _ => fits_ofNat hfit 32 }
    next => exact faultB64Dec_inv h (by decide) _

/-- A write of `MTUOVF` leaves `ERRF` alone (R168). -/
theorem State.Inv.setMtuovf {s : State} (h : s.Inv) (v : Bool) :
    State.Inv { s with status := putMtuovf s.status v } := by
  have herrf : State.errf { s with status := putMtuovf s.status v } = s.errf := by simp [State.errf]
  exact { h with
    status_reserved := putMtuovf_reserved _ _ h.status_reserved
    fault_state := herrf ▸ h.fault_state
    fault_code := herrf ▸ h.fault_code
    stopped_fault := herrf ▸ h.stopped_fault
    tlen_fits := herrf ▸ h.tlen_fits
    wlen_fits := herrf ▸ h.wlen_fits
    rlen_fits := herrf ▸ h.rlen_fits }

/-- `FRM.ENC` is issued outside an exchange, so the new `WLEN` is beside no write index (R202). -/
theorem encodeFrame_inv {s : State} (h : s.Inv) (hx : s.xstate ≠ .write) : (encodeFrame s).Inv := by
  unfold encodeFrame
  split
  · exact faultFrmEnc_inv h (by decide) _
  · split
    · exact faultFrmEnc_inv h (by decide) _
    · split
      next hfit =>
        exact { h.setMtuovf (mtuOverflow (wireBytes s).length s.mtu) with
          wbuf_wf := Memory.write_wf _ _ _ h.wbuf_wf
          write_index := fun hw => absurd hw hx
          wlen_fits := fun _ => fits_ofNat hfit 32 }
      next => exact faultFrmEnc_inv h (by decide) _

theorem decodeStep_inv {s : State} (h : s.Inv) (hx : s.xstate = .decode) : (decodeStep s).Inv := by
  have hport : s.portOpen = XState.portIsOpen .idle := by rw [h.port, hx]; rfl
  have hidle : State.Inv { s with xstate := .idle } :=
    h.setXstate (h.live_of_ne_fault (by simp [hx])) nofun hport nofun
  exact decodeFrameWith_inv hidle fun info hc => faultXcv_inv hidle hc info

theorem xcvStep_inv {s : State} (h : s.Inv) : (xcvStep s).Inv := by
  cases hx : s.xstate with
  | opening => simpa only [xcvStep, hx] using openStep_inv h hx
  | flush => simpa only [xcvStep, hx] using flushStep_inv h hx
  | write => simpa only [xcvStep, hx] using writeStep_inv h hx
  | waitM0 => simpa only [xcvStep, hx] using receiveStep_inv h
  | waitM1 => simpa only [xcvStep, hx] using receiveStep_inv h
  | body => simpa only [xcvStep, hx] using receiveStep_inv h
  | decode => simpa only [xcvStep, hx] using decodeStep_inv h hx
  | idle => simpa only [xcvStep, hx] using h
  | fault => simpa only [xcvStep, hx] using h

/-! ## Instructions and bus operations keep the invariant -/

/-- The device is open only inside an exchange (R203, R209). -/
theorem portIsOpen_of_not_busy {x : XState} (hx : x.busy = false) : x.portIsOpen = false := by
  cases x <;> first | rfl | cases hx

/-- The effect of every instruction keeps the invariant of a block that is not inside an exchange (R202; log 19). -/
theorem instrEffect_inv {s : State} (h : s.Inv) (hidle : s.xstate.busy = false) {i : Instr}
    (hlive : channelOf i = .command → s.errf = false) : (instrEffect i s).Inv := by
  cases i with
  | seqNext => exact { h with }
  | crcInit => exact { h with }
  | crcUpd => exact { h with }
  | crcBuf => exact { h with }
  | b64Enc => exact encodeText_inv h
  | b64Dec => exact decodeText_inv h
  | frmEnc => exact encodeFrame_inv h fun hx => by simp [hx, XState.busy] at hidle
  | frmDec => exact decodeFrameWith_inv h fun info hc => faultFrmDec_inv h hc info
  | xcv =>
    have hport : s.portOpen = XState.portIsOpen .opening := h.port.trans (portIsOpen_of_not_busy hidle)
    exact h.setXstate (hlive rfl) nofun hport nofun
  | markStart => exact arriveBytes_inv h _
  | markCont => exact arriveBytes_inv h _
  | term => exact arriveBytes_inv h _

theorem exec_inv {s t : State} (h : s.Inv) (hidle : s.xstate.busy = false) {i : Instr} (he : exec i s = .next t) :
    t.Inv := by
  rcases exec_cases he with ⟨-, -, rfl⟩ | ⟨hlive, rfl⟩
  · exact h
  · exact instrEffect_inv h hidle hlive

theorem issueCommand_inv {s t : State} (h : s.Inv) (hidle : s.xstate.busy = false) {code : Byte}
    (he : issueCommand code s = .next t) : t.Inv := by
  have hstored : State.Inv { s with cmd := code } := { h with }
  rcases issueCommand_cases he with ⟨-, rfl⟩ | ⟨-, i, -, hi⟩ | ⟨-, rfl⟩
  · exact h
  · exact exec_inv hstored hidle hi
  · exact hstored.faultable.raiseFault_inv (by decide) _

/-- A register write keeps the invariant when a length fits its buffer (R41). -/
theorem writeReg_inv {s : State} (h : s.Inv) {r : Reg} {v : Nat} (hl : lengthFits r v s.caps = true) :
    (writeReg r v s).Inv := by
  cases r with
  | PLEN => exact { h with plen_fits := fits_ofNat hl 16 }
  | TLEN => exact { h with tlen_fits := fun _ => fits_ofNat hl 32 }
  | _ => exact { h with }

theorem busWriteBytes_inv {s : State} (h : s.Inv) (b : Buf) (off : Nat) (bytes : List Byte) :
    (busWriteBytes b off bytes s).Inv := by
  cases b with
  | PBUF => exact { h with pbuf_wf := Memory.write_wf _ _ _ h.pbuf_wf }
  | TBUF => exact { h with tbuf_wf := Memory.write_wf _ _ _ h.tbuf_wf }
  | WBUF => exact h
  | RBUF => exact h

theorem busReadBytes_inv {s : State} (h : s.Inv) (b : Buf) (off n : Nat) : (busReadBytes b off n s).Inv := by
  unfold busReadBytes
  dsimp only
  split
  · exact { h with draws_made := by have hd := h.draws_made; simp; omega }
  · exact { h with }

theorem busOp_inv {s t : State} (h : s.Inv) (hidle : s.xstate.busy = false) {op : BusOp}
    (he : busOp op s = .next t) : t.Inv := by
  rcases busOp_cases he with
    ⟨v, -, hi⟩ | ⟨r, v, -, hl, rfl⟩ | ⟨r, -, rfl⟩ | ⟨b, off, bytes, -, rfl⟩ | ⟨b, off, n, -, rfl⟩
  · exact issueCommand_inv h hidle hi
  · exact writeReg_inv h hl
  · exact { h with }
  · exact busWriteBytes_inv h b off bytes
  · exact busReadBytes_inv h b off n

/-! ## Every step keeps the invariant -/

/-- The host program stops only where the operation has faulted (R23). -/
theorem operationDone_inv {s t : State} (h : t.Inv) : (operationDone s t).Inv := by
  unfold operationDone
  split
  · exact h
  · split
    next hf =>
      have herrf : t.errf = true := (Bool.and_eq_true_iff.1 hf).1
      exact { h with stopped_fault := fun _ => herrf }
    next => exact { h with }

theorem exchangeDone_inv {s t : State} (h : t.Inv) : (exchangeDone s t).Inv := by
  unfold exchangeDone
  split
  · exact operationDone_inv h
  · exact h

theorem fireTimeout_inv {s : State} (h : s.Inv) : (fireTimeout s).Inv :=
  faultXcv_inv (s := { s with tmr := 0 }) { h with } (by decide) 0

theorem tickTimer_inv {s : State} (h : s.Inv) : (tickTimer s).Inv := by
  unfold tickTimer
  split
  · split
    · exact fireTimeout_inv h
    · exact { h with }
  · exact h

theorem Move.inv {s t : State} (hm : Move s t) (h : s.Inv) : t.Inv := by
  cases hm with
  | rest => exact h
  | host idle _ _ performed => exact operationDone_inv (busOp_inv h idle performed)
  | exchange _ => exact operationDone_inv (xcvStep_inv h)
  | arrival bytes => exact exchangeDone_inv (arriveBytes_inv h bytes)
  | openFails _ => exact exchangeDone_inv (faultXcv_inv h (by decide) _)
  | writeFails _ _ => exact exchangeDone_inv (faultXcv_inv h (by decide) _)
  | readFails _ => exact exchangeDone_inv (faultXcv_inv h (by decide) _)
  | timesOut _ => exact exchangeDone_inv (fireTimeout_inv h)
  | tick => exact exchangeDone_inv (tickTimer_inv h)

/-- Settles O58: a step is a move of one agent or a reset, and each keeps the invariant. -/
theorem everyStepKeepsTheInvariant : Obligations.EveryStepKeepsTheInvariant := by
  intro s t h hstep
  rcases step_move hstep with ⟨env, hm⟩ | ⟨seed, rx, rest, -, rfl⟩
  · exact hm.inv { h with }
  · exact resetBy_inv seed rx _

/-! ## The transmitted bytes (10_state.md R36) -/

@[simp] theorem faultXcv_txout (c : FaultCode) (info : Half) (s : State) : (faultXcv c info s).txout = s.txout := rfl

@[simp] theorem operationDone_txout (s t : State) : (operationDone s t).txout = t.txout := by
  unfold operationDone
  split
  · rfl
  · split <;> rfl

@[simp] theorem exchangeDone_txout (s t : State) : (exchangeDone s t).txout = t.txout := by
  unfold exchangeDone
  split
  · exact operationDone_txout s t
  · rfl

theorem takeByte_txout (b : Byte) (s : State) : (takeByte b s).txout = s.txout := by
  cases hx : s.xstate with
  | waitM0 => simp only [takeByte, hx]; split <;> simp
  | waitM1 => simp only [takeByte, hx]; split <;> simp
  | body =>
    simp only [takeByte, hx]
    split
    · rfl
    · split <;> simp
  | _ => simp only [takeByte, hx]

theorem receiveStep_txout (s : State) : (receiveStep s).txout = s.txout := by
  unfold receiveStep
  split
  · rfl
  · exact takeByte_txout _ _

theorem arriveByte_txout (b : Byte) (s : State) : (arriveByte b s).txout = s.txout := by
  unfold arriveByte
  dsimp only
  split
  · exact receiveStep_txout _
  · rfl

theorem arriveBytes_txout (bytes : List Byte) (s : State) : (arriveBytes bytes s).txout = s.txout := by
  induction bytes generalizing s with
  | nil => rfl
  | cons b bs ih => exact (ih _).trans (arriveByte_txout b s)

theorem tickTimer_txout (s : State) : (tickTimer s).txout = s.txout := by
  unfold tickTimer
  split
  · split <;> rfl
  · rfl

theorem decodeFrameWith_txout {s : State} {onFault : FaultCode → Half → State → State}
    (hfault : ∀ c info, (onFault c info s).txout = s.txout) : (decodeFrameWith onFault s).txout = s.txout := by
  unfold decodeFrameWith
  split
  · exact hfault _ _
  · split
    · rfl
    · exact hfault _ _

/-- No instruction transmits: `XCV` begins the exchange, and its steps follow (R202). -/
theorem instrEffect_txout (i : Instr) (s : State) : (instrEffect i s).txout = s.txout := by
  cases i with
  | b64Enc => simp only [instrEffect, encodeText]; split <;> rfl
  | b64Dec =>
    simp only [instrEffect, decodeText]
    split
    · rfl
    · split <;> rfl
  | frmEnc =>
    simp only [instrEffect, encodeFrame]
    split
    · rfl
    · split
      · rfl
      · split <;> rfl
  | frmDec => exact decodeFrameWith_txout fun _ _ => rfl
  | markStart => exact arriveBytes_txout _ s
  | markCont => exact arriveBytes_txout _ s
  | term => exact arriveBytes_txout _ s
  | _ => rfl

theorem exec_txout {i : Instr} {s t : State} (h : exec i s = .next t) : t.txout = s.txout := by
  rcases exec_cases h with ⟨-, -, rfl⟩ | ⟨-, rfl⟩
  · rfl
  · exact instrEffect_txout i s

theorem issueCommand_txout {code : Byte} {s t : State} (h : issueCommand code s = .next t) : t.txout = s.txout := by
  rcases issueCommand_cases h with ⟨-, rfl⟩ | ⟨-, i, -, hi⟩ | ⟨-, rfl⟩
  · rfl
  · exact (exec_txout hi).trans rfl
  · rfl

theorem writeReg_txout (r : Reg) (v : Nat) (s : State) : (writeReg r v s).txout = s.txout := by
  cases r <;> rfl

theorem busWriteBytes_txout (b : Buf) (off : Nat) (bytes : List Byte) (s : State) :
    (busWriteBytes b off bytes s).txout = s.txout := by
  cases b <;> rfl

theorem busReadBytes_txout (b : Buf) (off n : Nat) (s : State) : (busReadBytes b off n s).txout = s.txout := by
  unfold busReadBytes
  dsimp only
  split <;> rfl

theorem busOp_txout {op : BusOp} {s t : State} (h : busOp op s = .next t) : t.txout = s.txout := by
  rcases busOp_cases h with
    ⟨v, -, hi⟩ | ⟨r, v, -, -, rfl⟩ | ⟨r, -, rfl⟩ | ⟨b, off, bytes, -, rfl⟩ | ⟨b, off, n, -, rfl⟩
  · exact issueCommand_txout hi
  · exact writeReg_txout r v s
  · rfl
  · exact busWriteBytes_txout b off bytes s
  · exact busReadBytes_txout b off n s

/-- One step of the framing state machine sends one byte of the frame, or none (R205). -/
theorem xcvStep_txout (s : State) :
    (xcvStep s).txout = s.txout ∨
      (s.xstate = .write ∧ s.widx.toNat < s.wlen.toNat ∧
        (xcvStep s).txout = s.txout ++ [s.wbuf.byte s.widx.toNat]) := by
  cases hx : s.xstate with
  | write =>
    have hstep : xcvStep s = writeStep s := by simp [xcvStep, hx]
    rw [hstep, writeStep]
    split
    next hlt => exact .inr ⟨rfl, hlt, rfl⟩
    next => exact .inl (beginWait_txout _)
  | waitM0 => simp [xcvStep, hx, receiveStep_txout]
  | waitM1 => simp [xcvStep, hx, receiveStep_txout]
  | body => simp [xcvStep, hx, receiveStep_txout]
  | decode =>
    have hstep : xcvStep s = decodeStep s := by simp [xcvStep, hx]
    rw [hstep, decodeStep]
    exact .inl ((decodeFrameWith_txout fun _ _ => rfl).trans rfl)
  | idle => simp [xcvStep, hx]
  | opening => simp [xcvStep, hx, openStep]
  | flush => simp [xcvStep, hx, flushStep]
  | fault => simp [xcvStep, hx]

theorem Move.txout {s t : State} (hm : Move s t) :
    t.txout = s.txout ∨
      (s.xstate = .write ∧ s.widx.toNat < s.wlen.toNat ∧ t.txout = s.txout ++ [s.wbuf.byte s.widx.toNat]) := by
  cases hm with
  | rest => exact .inl rfl
  | host _ _ _ performed => exact .inl ((operationDone_txout _ _).trans (busOp_txout performed))
  | exchange _ => simpa using xcvStep_txout s
  | arrival bytes => exact .inl ((exchangeDone_txout _ _).trans (arriveBytes_txout bytes s))
  | openFails _ => exact .inl ((exchangeDone_txout _ _).trans rfl)
  | writeFails _ _ => exact .inl ((exchangeDone_txout _ _).trans rfl)
  | readFails _ => exact .inl ((exchangeDone_txout _ _).trans rfl)
  | timesOut _ => exact .inl ((exchangeDone_txout _ _).trans rfl)
  | tick => exact .inl ((exchangeDone_txout _ _).trans (tickTimer_txout s))

/-- Settles O59: only the block's own step in `WRITE` transmits, and only a reset empties `TXOUT`. -/
theorem transmittedBytesStayTransmitted : Obligations.TransmittedBytesStayTransmitted := by
  intro s t hreset hstep
  rcases step_move hstep with ⟨env, hm⟩ | ⟨seed, rx, rest, henv, -⟩
  · exact hm.txout
  · exact absurd henv (hreset seed rx rest)

/-! ## The timer (10_state.md R34, 45_transceive.md R218; log 12) -/

/-- A run of `k + 1` steps is a step and a run of `k`. -/
theorem runsTo_succ_iff {k : Nat} {s u : State} : runsTo (k + 1) s u ↔ ∃ t, step s = .next t ∧ runsTo k t u := by
  have hcore : Sys2Proof.core.step s = step s := rfl
  simp only [runsTo, Host.Core.run, hcore]
  cases step s <;> simp

/-- Runs compose. -/
theorem runsTo_trans {m n : Nat} {s t u : State} (hst : runsTo m s t) (htu : runsTo n t u) : runsTo (m + n) s u := by
  induction m generalizing s with
  | zero =>
    obtain rfl : s = t := Host.Outcome.next.inj hst
    rwa [Nat.zero_add]
  | succ m ih =>
    obtain ⟨v, hsv, hvt⟩ := runsTo_succ_iff.1 hst
    rw [Nat.add_right_comm]
    exact runsTo_succ_iff.2 ⟨v, hsv, ih hvt⟩

/-- The step in which a second of a wait passes. -/
theorem step_tick {s : State} {rest : List EnvEvent} (hw : s.waiting = true) (henv : s.env = .tick :: rest) :
    step s = .next (operationDone { s with env := rest } (tickTimer { s with env := rest })) := by
  have hbusy : s.xstate.busy = true := receiving_busy (Bool.and_eq_true_iff.1 hw).1
  exact (step_eq_envTurn henv rfl).trans (congrArg _ (exchangeDone_busy (s := { s with env := rest }) hbusy))

theorem tickTimer_counts {s : State} (hw : s.waiting = true) (ht : 1 < s.tmr.toNat) :
    tickTimer s = { s with tmr := s.tmr - 1 } := by
  rw [tickTimer, if_pos hw, if_neg (Nat.not_le.2 ht)]

theorem tickTimer_fires {s : State} (hw : s.waiting = true) (ht : s.tmr.toNat ≤ 1) : tickTimer s = fireTimeout s := by
  rw [tickTimer, if_pos hw, if_pos ht]

/-- With more than one second left the wait goes on. -/
theorem step_tick_counts {s : State} {rest : List EnvEvent} (hw : s.waiting = true) (henv : s.env = .tick :: rest)
    (ht : 1 < s.tmr.toNat) : step s = .next { s with env := rest, tmr := s.tmr - 1 } := by
  have hbusy : s.xstate.busy = true := receiving_busy (Bool.and_eq_true_iff.1 hw).1
  rw [step_tick hw henv, tickTimer_counts (s := { s with env := rest }) hw ht]
  exact congrArg _ (operationDone_busy hbusy)

/-- With one second left the timeout fires, and the host's program stops. -/
theorem step_tick_fires {s : State} {rest : List EnvEvent} (hlive : s.errf = false) (hw : s.waiting = true)
    (henv : s.env = .tick :: rest) (ht : s.tmr.toNat ≤ 1) :
    step s = .next { fireTimeout { s with env := rest } with stopped := true } := by
  rw [step_tick hw henv, tickTimer_fires (s := { s with env := rest }) hw ht]
  exact congrArg _ (operationDone_fault rfl hlive (errf_raiseFault _ _ _))

/-- `k` ticks of a wait with more than `k` seconds left count down `TMR`, and nothing else happens. -/
theorem runsTo_ticks {k : Nat} {s : State} {rest : List EnvEvent} (hw : s.waiting = true)
    (henv : s.env = List.replicate k .tick ++ rest) (hk : k < s.tmr.toNat) :
    runsTo k s { s with env := rest, tmr := BitVec.ofNat 32 (s.tmr.toNat - k) } := by
  induction k generalizing s with
  | zero =>
    obtain rfl : s.env = rest := by simpa using henv
    simp [runsTo, Host.Core.run]
  | succ k ih =>
    have hstep := step_tick_counts hw henv (by omega)
    have hleft : (s.tmr - 1).toNat - k = s.tmr.toNat - (k + 1) := by bv_omega
    refine runsTo_succ_iff.2 ⟨_, hstep, ?_⟩
    rw [← hleft]
    exact ih (s := { s with env := List.replicate k .tick ++ rest, tmr := s.tmr - 1 }) hw rfl (by bv_omega)

/-- Settles O38, by `runsTo_ticks` and, for the last of `TIMEOUT` ticks, `step_tick_fires`. -/
theorem timerRunsOutAfterTimeoutTicks : Obligations.TimerRunsOutAfterTimeoutTicks := by
  intro s k hlive hr hq htmr henv
  have hw : s.waiting = true := by simp [State.waiting, hr, hq]
  have hleft : s.timeout.toNat = s.tmr.toNat := congrArg BitVec.toNat htmr.symm
  rw [hleft]
  constructor
  · intro hk
    exact runsTo_ticks hw (henv.trans (List.append_nil _).symm) hk
  · intro hk hpos
    obtain ⟨n, rfl⟩ := Nat.exists_eq_add_of_le' hpos
    have hwait := runsTo_ticks hw (henv.trans List.replicate_succ') (by omega)
    have hlast := step_tick_fires (s := { s with env := [.tick], tmr := BitVec.ofNat 32 (s.tmr.toNat - n) }) hlive hw
      rfl (by bv_omega)
    exact ⟨_, runsTo_trans hwait (runsTo_succ_iff.2 ⟨_, hlast, rfl⟩), rfl⟩

end Sys2Proof.Machine
end

section
/-! PROOFS. The encoding family: the decoder and the encoder are inverse; a step at a command code, at an illegal code and
at a wire symbol; the symbols at a waiting receiver; the host blocked during an exchange. -/

namespace Sys2Proof

/-! ## Decode and encode (30_encoding.md R89, R93, R95) -/

/-- Every instruction is read back from its bytes on its channel. -/
theorem decode_encode (i : Instr) : decode (channelOf i) (encode i) = .ok i := by
  cases i <;> rfl

/-- A command code is its two fields, `unit` above `fn` (R93). -/
theorem toNat_eq_commandFields (code : Byte) :
    code.toNat = 16 * (commandUnit code).toNat + (commandFn code).toNat := by
  have hlt := code.isLt
  simp only [commandUnit, commandFn, BitVec.extractLsb'_toNat, Nat.shiftRight_eq_div_pow]
  omega

theorem eq_of_commandFields {code : Byte} {u f : Nat} (hu : (commandUnit code).toNat = u)
    (hf : (commandFn code).toNat = f) : code = BitVec.ofNat 8 (16 * u + f) := by
  rw [← hu, ← hf, ← toNat_eq_commandFields, BitVec.ofNat_toNat, BitVec.setWidth_eq]

/-- A code that decodes is the encoding of a command, by the two fields of its row (R95). -/
theorem encode_of_decodeCommand {code : Byte} {i : Instr} (h : decodeCommand code = .ok i) :
    channelOf i = .command ∧ encode i = [code] := by
  unfold decodeCommand at h
  split at h
  case h_10 => cases h
  all_goals
    next hu hf =>
      cases h
      rw [eq_of_commandFields hu hf]
      exact ⟨rfl, rfl⟩

/-- Bytes that decode on the wire are those of a symbol (R89). -/
theorem encode_of_decodeWire {bytes : List Byte} {i : Instr} (h : decodeWire bytes = .ok i) :
    channelOf i = .wire ∧ encode i = bytes := by
  unfold decodeWire at h
  split at h
  next hstart => cases h; exact ⟨rfl, hstart.symm⟩
  next =>
    split at h
    next hcont => cases h; exact ⟨rfl, hcont.symm⟩
    next =>
      split at h
      next hterm => cases h; exact ⟨rfl, hterm.symm⟩
      next => cases h

/-- Bytes that decode are the bytes of what they decode to. -/
theorem encode_of_decode {c : Channel} {bytes : List Byte} {i : Instr} (h : decode c bytes = .ok i) :
    channelOf i = c ∧ encode i = bytes := by
  cases c with
  | wire => exact encode_of_decodeWire h
  | command =>
    match bytes with
    | [] => cases h
    | [code] => exact encode_of_decodeCommand h
    | _ :: _ :: _ => cases h

/-- Settles O2. -/
theorem decodeAndEncodeAgree : Obligations.DecodeAndEncodeAgree :=
  ⟨fun i _ => decode_encode i, fun _ _ _ => encode_of_decode⟩

/-- The table's numbering leads every instruction's bytes back to their channel (log 25). -/
theorem tableChannel_encode (i : Instr) : tableChannel (encode i) = channelOf i := by
  cases i <;> rfl

/-- A table number whose bytes are an instruction's decodes to it. -/
theorem decodeTableWord_eq_some {nbits w : Nat} {i : Instr} (h : tableBytes nbits w = some (encode i)) :
    decodeTableWord nbits w = some i := by
  simp only [decodeTableWord, h, tableChannel_encode, decode_encode, Except.toOption]

/-- Settles O1: eight words by the bytes they stand for, three by evaluation of the decoder. -/
theorem wordsDecodeAsTheTableSays : Obligations.WordsDecodeAsTheTableSays :=
  ⟨decodeTableWord_eq_some rfl, decodeTableWord_eq_some rfl, decodeTableWord_eq_some rfl,
    decodeTableWord_eq_some rfl, decodeTableWord_eq_some rfl, decodeTableWord_eq_some rfl,
    decodeTableWord_eq_some rfl, decodeTableWord_eq_some rfl, rfl, rfl, rfl⟩

/-- The nine command codes (R95). -/
theorem encode_mem_of_command {i : Instr} (h : channelOf i = .command) :
    encode i ∈ ([[0x10], [0x20], [0x21], [0x22], [0x30], [0x31], [0x40], [0x41], [0x50]] : List (List Byte)) := by
  revert h
  cases i <;> decide

/-- Every code but the nine is illegal (R96). -/
theorem decodeCommand_illegal {code : Byte}
    (h : code ∉ ([0x10, 0x20, 0x21, 0x22, 0x30, 0x31, 0x40, 0x41, 0x50] : List Byte)) :
    ∃ e, decodeCommand code = .error e := by
  cases hd : decodeCommand code with
  | error e => exact ⟨e, rfl⟩
  | ok i =>
    obtain ⟨hchannel, hcode⟩ := encode_of_decodeCommand hd
    exact absurd (by simpa [hcode] using encode_mem_of_command hchannel) h

end Sys2Proof

namespace Sys2Proof.Machine

/-! ## The step at a command code and at a wire symbol (R94, R96, R282; log 9, log 13, log 14) -/

/-- A code fits `CMD`, so its write is never refused and issues the command (R41, R94). -/
theorem busOp_command (code : Byte) (s : State) : busOp (.wr 0 code.toNat) s = issueCommand code s := by
  have hok : busRefusal s.caps (.wr 0 code.toNat) = none :=
    writeRefusal_eq_none_iff.2 ⟨.CMD, rfl, rfl, code.isLt, rfl⟩
  simp [busOp, hok, Reg.number]

theorem issueCommand_faulted {s : State} (h : s.errf = true) (code : Byte) : issueCommand code s = .next s := by
  simp [issueCommand, h]

theorem issueCommand_ok {s : State} {code : Byte} {i : Instr} (h : s.errf = false) (hd : decodeCommand code = .ok i) :
    issueCommand code s = exec i { s with cmd := code } := by
  simp [issueCommand, h, hd]

theorem issueCommand_illegal {s : State} {code : Byte} {e : DecodeError} (h : s.errf = false)
    (hd : decodeCommand code = .error e) :
    issueCommand code s = .next (illegalCommand code { s with cmd := code }) := by
  simp [issueCommand, h, hd]

/-- The step of a host that writes a code to `CMD`. -/
theorem State.performs.step_command {s t : State} {code : Byte} (h : s.performs (.wr 0 code.toNat))
    (ht : issueCommand code s = .next t) : step s = .next (operationDone s t) := by
  rw [h.step_eq, busOp_command, ht]

/-- Settles O3. -/
theorem stepRunsTheDecodedCommand : Obligations.StepRunsTheDecodedCommand := by
  intro s code i h hd
  constructor
  · intro hlive
    obtain ⟨t, ht⟩ := exec_next i { s with cmd := code }
    exact ⟨t, ht, h.step_command ((issueCommand_ok hlive hd).trans ht)⟩
  · intro hfault
    rw [h.step_command (issueCommand_faulted hfault code), operationDone_same h.1 rfl]

/-- Settles O4: the device's turn runs the symbol it decodes. -/
theorem stepRunsTheDecodedSymbol : Obligations.StepRunsTheDecodedSymbol := by
  intro s bytes rest i henv hd
  obtain ⟨t, ht⟩ := exec_next i { s with env := rest }
  refine ⟨t, ht, ?_⟩
  rw [step_eq_envTurn henv rfl]
  simp only [envTurn, deviceTurn, hd, ht]

/-- Settles O44: the count by evaluation of the decoder, the effect by `decodeCommand_illegal`. -/
theorem illegalCodesFault : Obligations.IllegalCodesFault := by
  refine ⟨by decide +kernel, fun s code hlive h hcode => ?_⟩
  obtain ⟨e, hd⟩ := decodeCommand_illegal hcode
  have hfault : (illegalCommand code { s with cmd := code }).errf = true := errf_raiseFault _ _ _
  rw [h.step_command (issueCommand_illegal hlive hd), operationDone_fault rfl hlive hfault]
  simp [illegalCommand, raiseFault, FaultCode.code]

/-! ## The receiver takes a byte (45_transceive.md R206 to R209) -/

/-- A receiving machine has its timer loaded when its queue is empty (R34, R218). -/
theorem beginWait_receiving {s : State} (hr : s.xstate.receiving = true) :
    beginWait s = { s with tmr := timerAfter s.rxfifo s } := by
  simp only [beginWait, State.waiting, hr, Bool.true_and, timerAfter]
  split <;> rfl

theorem timerAfter_nil (s : State) : timerAfter [] s = s.timeout := rfl

section
variable {s : State} {b : Byte}

theorem takeByte_waitM0_accepts (hx : s.xstate = .waitM0) :
    takeByte 0x06 s = { s with xstate := .waitM1, tmr := timerAfter s.rxfifo s } := by
  simp only [takeByte, hx, if_true]
  exact beginWait_receiving rfl

theorem takeByte_waitM0_mismatch (hx : s.xstate = .waitM0) (hb : b ≠ 0x06) :
    takeByte b s = faultXcv .marker ((0x00 : Byte) ++ b) s := by
  simp only [takeByte, hx, if_neg hb]

theorem takeByte_waitM1_accepts (hx : s.xstate = .waitM1) :
    takeByte 0x09 s = { s with xstate := .body, tmr := timerAfter s.rxfifo s } := by
  simp only [takeByte, hx, if_true]
  exact beginWait_receiving rfl

theorem takeByte_waitM1_mismatch (hx : s.xstate = .waitM1) (hb : b ≠ 0x09) :
    takeByte b s = faultXcv .marker ((0x01 : Byte) ++ b) s := by
  simp only [takeByte, hx, if_neg hb]

theorem takeByte_body_terminator (hx : s.xstate = .body) :
    takeByte terminator s = { s with xstate := .decode, portOpen := false } := by
  simp only [takeByte, hx, if_true]

/-- A full `TBUF` takes no content byte (R208). -/
theorem takeByte_body_full (hx : s.xstate = .body) (hb : b ≠ terminator) (hfull : s.caps.tbuf = some s.tlen.toNat) :
    takeByte b s = faultXcv .overrun 0 s := by
  simp only [takeByte, hx, if_neg hb, if_pos hfull]

theorem appendText_eq (hlt : s.tlen.toNat + 1 < 2 ^ 32) (b : Byte) :
    appendText b s = { s with tbuf := s.tbuf.write s.tlen.toNat [b], tlen := s.tlen + 1 } := by
  simp only [appendText, if_pos hlt]

/-- A content byte for which there is room is stored (R208). -/
theorem takeByte_body_stores (hx : s.xstate = .body) (hb : b ≠ terminator)
    (hroom : s.caps.tbuf ≠ some s.tlen.toNat) (hlt : s.tlen.toNat + 1 < 2 ^ 32) :
    takeByte b s =
      { s with
        tbuf := s.tbuf.write s.tlen.toNat [b], tlen := s.tlen + 1, tmr := timerAfter s.rxfifo s } := by
  simp only [takeByte, hx, if_neg hb, if_neg hroom, appendText_eq hlt]
  exact beginWait_receiving rfl

end

/-! ## Bytes that arrive at a waiting receiver (R91; log 10) -/

/-- What arrives after a fault of `XCV` stays in the queue (R216). -/
theorem arriveBytes_faultXcv (c : FaultCode) (info : Half) (s : State) (bs : List Byte) :
    RaisedXcv c info { s with rxfifo := s.rxfifo ++ bs } (arriveBytes bs (faultXcv c info s)) := by
  rw [arriveBytes_queues rfl]
  rfl

/-- The first byte of an arrival is taken; a fault it raises leaves the others in the queue. -/
theorem arriveBytes_first_faults {s : State} {b : Byte} {c : FaultCode} {info : Half}
    (hr : s.xstate.receiving = true) (hq : s.rxfifo = []) (ht : takeByte b s = faultXcv c info s) (bs : List Byte) :
    RaisedXcv c info { s with rxfifo := bs } (arriveBytes (b :: bs) s) := by
  rw [arriveBytes_cons, arriveByte_waiting hr hq, ht]
  simpa [hq] using arriveBytes_faultXcv c info s bs

/-- An arrival of one byte leaves the queue empty, also when it faults. -/
theorem arriveBytes_one_faults {s : State} {b : Byte} {c : FaultCode} {info : Half}
    (hr : s.xstate.receiving = true) (hq : s.rxfifo = []) (ht : takeByte b s = faultXcv c info s) :
    RaisedXcv c info s (arriveBytes [b] s) := by
  rw [arriveBytes_cons, arriveByte_waiting hr hq, ht]
  rfl

section
variable {s : State} (hq : s.rxfifo = [])
include hq

theorem arriveBytes_waitM0_accepts (hx : s.xstate = .waitM0) (bs : List Byte) :
    arriveBytes (0x06 :: bs) s = arriveBytes bs { s with xstate := .waitM1, tmr := s.timeout } := by
  rw [arriveBytes_cons, arriveByte_waiting (by rw [hx]; rfl) hq, takeByte_waitM0_accepts hx, hq, timerAfter_nil]

theorem arriveBytes_waitM1_accepts (hx : s.xstate = .waitM1) (bs : List Byte) :
    arriveBytes (0x09 :: bs) s = arriveBytes bs { s with xstate := .body, tmr := s.timeout } := by
  rw [arriveBytes_cons, arriveByte_waiting (by rw [hx]; rfl) hq, takeByte_waitM1_accepts hx, hq, timerAfter_nil]

/-- The start marker at `WAIT_M0`: both bytes are accepted (R206, R207). -/
theorem arriveBytes_startMarker (hx : s.xstate = .waitM0) :
    arriveBytes startMarker s = { s with xstate := .body, tmr := s.timeout } :=
  (arriveBytes_waitM0_accepts hq hx _).trans
    (arriveBytes_waitM1_accepts (s := { s with xstate := .waitM1, tmr := s.timeout }) hq rfl [])

/-- The terminator in `BODY`: the line is complete (R209). -/
theorem arriveBytes_body_terminator (hx : s.xstate = .body) :
    arriveBytes [terminator] s = { s with xstate := .decode, portOpen := false } :=
  (arriveByte_waiting (by rw [hx]; rfl) hq _).trans (takeByte_body_terminator hx)

variable {b : Byte} (hx : s.xstate = .body)
include hx

/-- A byte that is stored on arrival leaves the machine waiting for the next one (R208). -/
theorem arriveBytes_body_stores (hb : b ≠ terminator) (hroom : s.caps.tbuf ≠ some s.tlen.toNat)
    (hlt : s.tlen.toNat + 1 < 2 ^ 32) (bs : List Byte) :
    arriveBytes (b :: bs) s =
      arriveBytes bs
        { s with tbuf := s.tbuf.write s.tlen.toNat [b], tlen := s.tlen + 1, tmr := s.timeout } := by
  rw [arriveBytes_cons, arriveByte_waiting (by rw [hx]; rfl) hq, takeByte_body_stores hx hb hroom hlt, hq,
    timerAfter_nil]

/-- Two content bytes with room for both are stored one after the other. -/
theorem arriveBytes_body_stores_two {b' : Byte} (hb : b ≠ terminator) (hb' : b' ≠ terminator)
    (hroom : s.caps.tbuf ≠ some s.tlen.toNat) (hroom' : s.caps.tbuf ≠ some (s.tlen.toNat + 1))
    (hlt : s.tlen.toNat + 2 < 2 ^ 32) :
    arriveBytes [b, b'] s =
      { s with
        tbuf := (s.tbuf.write s.tlen.toNat [b]).write (s.tlen.toNat + 1) [b'], tlen := s.tlen + 2
        tmr := s.timeout } := by
  have hnext : (s.tlen + 1).toNat = s.tlen.toNat + 1 := by bv_omega
  have htwo : s.tlen + 1 + 1 = s.tlen + 2 := by bv_omega
  rw [arriveBytes_body_stores hq hx hb hroom (by omega)]
  refine (arriveBytes_body_stores (s := { s with tbuf := _, tlen := s.tlen + 1, tmr := s.timeout }) hq hx hb'
    (by simpa only [hnext] using hroom') (by simp only [hnext]; omega) []).trans ?_
  simp only [hnext, htwo, arriveBytes_nil]

/-- With room for the first of two content bytes only, the second overruns (R208). -/
theorem arriveBytes_body_second_overruns {b' : Byte} (hb : b ≠ terminator) (hb' : b' ≠ terminator)
    (hlast : s.caps.tbuf = some (s.tlen.toNat + 1)) (hlt : s.tlen.toNat + 1 < 2 ^ 32) :
    RaisedXcv .overrun 0 { s with tmr := s.timeout } (arriveBytes [b, b'] s) := by
  have hnext : (s.tlen + 1).toNat = s.tlen.toNat + 1 := by bv_omega
  have hr : s.xstate.receiving = true := by rw [hx]; rfl
  rw [arriveBytes_body_stores hq hx hb (by rw [hlast]; simp) hlt]
  exact arriveBytes_one_faults hr hq (takeByte_body_full hx hb' (by simpa only [hnext] using hlast))

end

/-- Two single-byte writes in a row: both bytes are read back behind what stood before, and no other byte changes. -/
theorem Memory.write_two (m : Memory) (n : Nat) (b b' : Byte) :
    ((m.write n [b]).write (n + 1) [b']).read 0 (n + 2) = m.read 0 n ++ [b, b'] ∧
      ∀ a, a < n ∨ n + 2 ≤ a → ((m.write n [b]).write (n + 1) [b']).byte a = m.byte a := by
  constructor
  · rw [Memory.read_write_append, Memory.read_write_append, List.append_assoc, List.singleton_append]
  · intro a ha
    have hsnd : a < n + 1 ∨ n + 1 + [b'].length ≤ a := ha.imp (by omega) id
    have hfst : a < n ∨ n + [b].length ≤ a := ha.imp id (by simp; omega)
    rw [Memory.byte_write_outside _ _ _ _ hsnd, Memory.byte_write_outside _ _ _ _ hfst]

/-- A marker's two bytes as content of a line in `BODY` (R91). -/
theorem arriveBytes_body_content {s : State} {b b' : Byte} (hx : s.xstate = .body) (hq : s.rxfifo = [])
    (hb : b ≠ terminator) (hb' : b' ≠ terminator) (hroom : s.caps.tbuf ≠ some s.tlen.toNat)
    (hroom' : s.caps.tbuf ≠ some (s.tlen.toNat + 1)) (hlt : s.tlen.toNat + 2 < 2 ^ 32) :
    ∃ t, arriveBytes [b, b'] s = t ∧
      t.tbuf.read 0 (s.tlen.toNat + 2) = s.tbuf.read 0 s.tlen.toNat ++ [b, b'] ∧
      (∀ a, a < s.tlen.toNat ∨ s.tlen.toNat + 2 ≤ a → t.tbuf.byte a = s.tbuf.byte a) ∧
      t = { s with tbuf := t.tbuf, tlen := s.tlen + 2, tmr := s.timeout } := by
  obtain ⟨hread, hframe⟩ := s.tbuf.write_two s.tlen.toNat b b'
  exact ⟨_, arriveBytes_body_stores_two hq hx hb hb' hroom hroom' hlt, hread, hframe, rfl⟩

/-- Settles O40: in each receiving state, each symbol by what the receiver makes of its bytes. -/
theorem wireSymbolsAtAWaitingReceiver : Obligations.WireSymbolsAtAWaitingReceiver := by
  intro s _ hq
  refine ⟨fun hx => ?_, fun hx => ?_, fun hx => ?_⟩
  all_goals have hr : s.xstate.receiving = true := by rw [hx]; rfl
  case refine_1 =>
    refine ⟨congrArg _ (arriveBytes_startMarker hq hx), ⟨_, rfl, ?_⟩, ⟨_, rfl, ?_⟩⟩
    · exact arriveBytes_first_faults hr hq (takeByte_waitM0_mismatch hx (by decide)) _
    · exact arriveBytes_one_faults hr hq (takeByte_waitM0_mismatch hx (by decide))
  case refine_2 =>
    refine ⟨⟨_, rfl, ?_⟩, ⟨_, rfl, ?_⟩, ⟨_, rfl, ?_⟩⟩
    · exact arriveBytes_first_faults hr hq (takeByte_waitM1_mismatch hx (by decide)) _
    · exact arriveBytes_first_faults hr hq (takeByte_waitM1_mismatch hx (by decide)) _
    · exact arriveBytes_one_faults hr hq (takeByte_waitM1_mismatch hx (by decide))
  case refine_3 =>
    refine ⟨congrArg Host.Outcome.next ?_, fun hroom hroom' hlt => ?_, fun hlast hlt => ?_, fun hfull => ?_⟩
    · exact arriveBytes_body_terminator hq hx
    · obtain ⟨_, rfl, hstart⟩ := arriveBytes_body_content (b := 0x06) (b' := 0x09) hx hq (by decide) (by decide)
        hroom hroom' hlt
      obtain ⟨_, rfl, hcont⟩ := arriveBytes_body_content (b := 0x04) (b' := 0x14) hx hq (by decide) (by decide)
        hroom hroom' hlt
      exact ⟨⟨_, rfl, hstart⟩, ⟨_, rfl, hcont⟩⟩
    · exact ⟨⟨_, rfl, arriveBytes_body_second_overruns hq hx (by decide) (by decide) hlast hlt⟩,
        ⟨_, rfl, arriveBytes_body_second_overruns hq hx (by decide) (by decide) hlast hlt⟩⟩
    · exact ⟨⟨_, rfl, arriveBytes_first_faults hr hq (takeByte_body_full hx (by decide) hfull) _⟩,
        ⟨_, rfl, arriveBytes_first_faults hr hq (takeByte_body_full hx (by decide) hfull) _⟩⟩

/-! ## The host during an exchange (R65, R94, R202) -/

/-- What an exchange leaves alone: the request and the configuration, `CMD`, the capacities, and the host's own state. -/
def State.hostSide (s : State) :=
  (s.seq, s.res, s.data, s.linelen, s.mtu, s.timeout, s.plen, s.pbuf, s.wbuf, s.wlen, s.txhOp, s.txhLen, s.txhGroup,
    s.txhSeq, s.txhCmd, s.cmd, s.program, s.reads, s.caps, s.pc, s.stopped)

theorem hostSide_eq_iff {s t : State} :
    t.hostSide = s.hostSide ↔
      SameRequest s t ∧ t.cmd = s.cmd ∧ t.program = s.program ∧ t.reads = s.reads ∧ t.caps = s.caps ∧ t.pc = s.pc ∧
        t.stopped = s.stopped := by
  simp only [State.hostSide, SameRequest, Prod.mk.injEq, and_assoc]

theorem faultXcv_hostSide (c : FaultCode) (info : Half) (s : State) :
    (faultXcv c info s).hostSide = s.hostSide := rfl

theorem beginWait_hostSide (s : State) : (beginWait s).hostSide = s.hostSide := by
  unfold beginWait
  split <;> rfl

theorem appendText_hostSide (b : Byte) (s : State) : (appendText b s).hostSide = s.hostSide := by
  unfold appendText
  dsimp only
  split <;> rfl

theorem takeByte_hostSide (b : Byte) (s : State) : (takeByte b s).hostSide = s.hostSide := by
  cases hx : s.xstate with
  | waitM0 =>
    simp only [takeByte, hx]
    split
    · exact beginWait_hostSide _
    · exact faultXcv_hostSide _ _ _
  | waitM1 =>
    simp only [takeByte, hx]
    split
    · exact beginWait_hostSide _
    · exact faultXcv_hostSide _ _ _
  | body =>
    simp only [takeByte, hx]
    split
    · rfl
    · split
      · exact faultXcv_hostSide _ _ _
      · exact (beginWait_hostSide _).trans (appendText_hostSide b s)
  | _ => simp only [takeByte, hx]

theorem receiveStep_hostSide (s : State) : (receiveStep s).hostSide = s.hostSide := by
  unfold receiveStep
  split
  · rfl
  · exact takeByte_hostSide _ _

theorem arriveByte_hostSide (b : Byte) (s : State) : (arriveByte b s).hostSide = s.hostSide := by
  unfold arriveByte
  dsimp only
  split
  · exact receiveStep_hostSide _
  · rfl

theorem arriveBytes_hostSide (bytes : List Byte) (s : State) : (arriveBytes bytes s).hostSide = s.hostSide := by
  induction bytes generalizing s with
  | nil => rfl
  | cons b bs ih => exact (ih _).trans (arriveByte_hostSide b s)

theorem tickTimer_hostSide (s : State) : (tickTimer s).hostSide = s.hostSide := by
  unfold tickTimer
  split
  · split <;> rfl
  · rfl

theorem writeStep_hostSide (s : State) : (writeStep s).hostSide = s.hostSide := by
  unfold writeStep
  split
  · rfl
  · exact beginWait_hostSide _

theorem decodeStep_hostSide (s : State) : (decodeStep s).hostSide = s.hostSide := by
  unfold decodeStep decodeFrameWith
  split
  · exact faultXcv_hostSide _ _ _
  · split
    · rfl
    · exact faultXcv_hostSide _ _ _

theorem xcvStep_hostSide (s : State) : (xcvStep s).hostSide = s.hostSide := by
  cases hx : s.xstate with
  | write => simpa only [xcvStep, hx] using writeStep_hostSide s
  | waitM0 => simpa only [xcvStep, hx] using receiveStep_hostSide s
  | waitM1 => simpa only [xcvStep, hx] using receiveStep_hostSide s
  | body => simpa only [xcvStep, hx] using receiveStep_hostSide s
  | decode => simpa only [xcvStep, hx] using decodeStep_hostSide s
  | opening => simp only [xcvStep, hx]; rfl
  | flush => simp only [xcvStep, hx]; rfl
  | _ => simp only [xcvStep, hx]

/-- A move inside an exchange: the host's side of the state stands, and then the end of the exchange is looked for. -/
theorem Move.of_busy {s t : State} (hm : Move s t) (hb : s.xstate.busy = true) :
    t = s ∨ ∃ u, u.hostSide = s.hostSide ∧ t = operationDone s u := by
  cases hm with
  | rest => exact .inl rfl
  | host idle _ _ _ => exact absurd (idle.symm.trans hb) Bool.false_ne_true
  | exchange _ => exact .inr ⟨_, xcvStep_hostSide s, rfl⟩
  | arrival bytes => exact .inr ⟨_, arriveBytes_hostSide bytes s, exchangeDone_busy hb⟩
  | openFails _ => exact .inr ⟨failOpen s, faultXcv_hostSide _ _ _, exchangeDone_busy hb⟩
  | writeFails _ _ => exact .inr ⟨failWrite s, faultXcv_hostSide _ _ _, exchangeDone_busy hb⟩
  | readFails _ => exact .inr ⟨failRead s, faultXcv_hostSide _ _ _, exchangeDone_busy hb⟩
  | timesOut _ => exact .inr ⟨fireTimeout s, faultXcv_hostSide _ _ _, exchangeDone_busy hb⟩
  | tick => exact .inr ⟨_, tickTimer_hostSide s, exchangeDone_busy hb⟩

/-- The end of the host's operation moves only its index and its stop flag, and nothing while the exchange goes on. -/
theorem operationDone_cases (s u : State) :
    operationDone s u = u ∨ (operationDone s u).xstate.busy = false ∧
      (operationDone s u = { u with stopped := true } ∨ operationDone s u = { u with pc := u.pc + 1 }) := by
  cases hb : u.xstate.busy with
  | true => exact .inl (operationDone_busy hb)
  | false =>
    right
    unfold operationDone
    rw [hb]
    cases u.errf && !s.errf with
    | true => exact ⟨hb, .inl rfl⟩
    | false => exact ⟨hb, .inr rfl⟩

/-- What `HostIsBlockedDuringAnExchange` says of one step from `s` to `t`. -/
def HostBlocked (s t : State) : Prop :=
  SameRequest s t ∧ t.cmd = s.cmd ∧ t.program = s.program ∧ t.reads = s.reads ∧ t.caps = s.caps ∧
    (t.xstate.busy = true → t.pc = s.pc ∧ t.stopped = s.stopped)

theorem hostBlocked_of_hostSide {s u : State} (h : u.hostSide = s.hostSide) : HostBlocked s u := by
  obtain ⟨hrequest, hcmd, hprogram, hreads, hcaps, hpc, hstopped⟩ := hostSide_eq_iff.1 h
  exact ⟨hrequest, hcmd, hprogram, hreads, hcaps, fun _ => ⟨hpc, hstopped⟩⟩

theorem hostBlocked_operationDone {s u : State} (h : u.hostSide = s.hostSide) :
    HostBlocked s (operationDone s u) := by
  obtain ⟨hrequest, hcmd, hprogram, hreads, hcaps, -⟩ := hostBlocked_of_hostSide h
  rcases operationDone_cases s u with heq | ⟨hend, heq | heq⟩
  · rw [heq]
    exact hostBlocked_of_hostSide h
  all_goals
    rw [heq] at hend ⊢
    exact ⟨hrequest, hcmd, hprogram, hreads, hcaps, fun hb => absurd (hend.symm.trans hb) Bool.false_ne_true⟩

/-- Settles O54: every move inside an exchange keeps the host's side, and only its end moves the host on. -/
theorem hostIsBlockedDuringAnExchange : Obligations.HostIsBlockedDuringAnExchange := by
  intro s t hb hreset hstep
  rcases step_move hstep with ⟨env, hm⟩ | ⟨seed, rx, rest, henv, -⟩
  · rcases hm.of_busy hb with rfl | ⟨u, hu, rfl⟩
    · exact hostBlocked_of_hostSide (s := s) rfl
    · exact hostBlocked_operationDone hu
  · exact absurd henv (hreset seed rx rest)

end Sys2Proof.Machine
end

section
/-! PROOFS. The sequence number family (40_seq.md): one `SEQ.NEXT`, any number of them in a row in closed form, and the
cycle of the results. -/

namespace Sys2Proof.Machine

/-! ## A command before and after a fault (R94, R282) -/

theorem exec_command_live {i : Instr} (hi : channelOf i = .command) {s : State} (h : s.errf = false) :
    exec i s = .next (instrEffect i s) := by
  rw [exec_command hi, command_live h]

theorem exec_command_faulted {i : Instr} (hi : channelOf i = .command) {s : State} (h : s.errf = true) :
    exec i s = .next s := by
  rw [exec_command hi, command_faulted h]

/-! ## Commands in a row -/

@[simp] theorem execRepeat_zero (i : Instr) (s : State) : execRepeat i 0 s = .next s := rfl

theorem execRepeat_succ {i : Instr} {s t : State} (h : exec i s = .next t) (k : Nat) :
    execRepeat i (k + 1) s = execRepeat i k t := by
  simp only [execRepeat, h]

/-! ## SEQ.NEXT (R121, R122) -/

@[simp] theorem nextId_res (s : State) : (nextId s).res = s.seq := rfl
@[simp] theorem nextId_seq (s : State) : (nextId s).seq = s.seq + 1 := rfl
@[simp] theorem nextId_errf (s : State) : (nextId s).errf = s.errf := rfl

theorem exec_seqNext_live {s : State} (h : s.errf = false) : exec .seqNext s = .next (nextId s) :=
  exec_command_live rfl h

/-- Settles O5: the decoder's row, and the two things a command can do. -/
theorem seqNextReturnsTheOldValueAndAdvances : Obligations.SeqNextReturnsTheOldValueAndAdvances :=
  ⟨rfl, fun _ hlive => exec_seqNext_live hlive, fun _ hfault => exec_command_faulted rfl hfault⟩

/-- `k + 1` commands `SEQ.NEXT` in a row: only `RES` and `SEQ` differ, and both are offsets from the first `SEQ`. -/
theorem execRepeat_seqNext {s : State} (h : s.errf = false) (k : Nat) :
    execRepeat .seqNext (k + 1) s =
      .next { s with res := s.seq + BitVec.ofNat 8 k, seq := s.seq + BitVec.ofNat 8 (k + 1) } := by
  induction k generalizing s with
  | zero =>
    rw [execRepeat_succ (exec_seqNext_live h), execRepeat_zero]
    simp [nextId]
  | succ k ih =>
    have hoffset (n : Nat) : s.seq + 1 + BitVec.ofNat 8 n = s.seq + BitVec.ofNat 8 (n + 1) := by
      bv_omega
    rw [execRepeat_succ (exec_seqNext_live h), ih ((nextId_errf s).trans h), nextId_seq, hoffset, hoffset]
    rfl

/-- The `k`-th result and the value it leaves, as numbers. -/
theorem execRepeat_seqNext_toNat {s t : State} {k : Nat} (h : s.errf = false) (hk : 1 ≤ k)
    (ht : execRepeat .seqNext k s = .next t) :
    t.res.toNat = (s.seq.toNat + k - 1) % 256 ∧ t.seq.toNat = (s.seq.toNat + k) % 256 := by
  obtain ⟨n, rfl⟩ : ∃ n, k = n + 1 := ⟨k - 1, by omega⟩
  rw [execRepeat_seqNext h] at ht
  injection ht with ht
  subst ht
  simp [BitVec.toNat_add, ← Nat.add_assoc]

/-- Two results are equal exactly when a multiple of 256 commands lies between them. -/
theorem execRepeat_seqNext_res_eq_iff {s t u : State} {j k : Nat} (h : s.errf = false) (hj : 1 ≤ j) (hjk : j ≤ k)
    (ht : execRepeat .seqNext j s = .next t) (hu : execRepeat .seqNext k s = .next u) :
    t.res = u.res ↔ 256 ∣ k - j := by
  obtain ⟨htres, -⟩ := execRepeat_seqNext_toNat h hj ht
  obtain ⟨hures, -⟩ := execRepeat_seqNext_toNat h (hj.trans hjk) hu
  rw [← BitVec.toNat_inj, htres, hures]
  omega

/-- Settles O6: the numbers by the closed form `execRepeat_seqNext`, by induction on the count of commands; between
results that differ there are fewer than 256 commands, between equal ones 256. -/
theorem sequenceIdsCycleThroughAll256 : Obligations.SequenceIdsCycleThroughAll256 := by
  intro s hlive
  refine ⟨fun k hk => ?_, fun j k t u hj hjk ht hu => ?_⟩
  · obtain ⟨t, ht⟩ := execRepeat_next .seqNext k s
    exact ⟨t, ht, execRepeat_seqNext_toNat hlive hk ht⟩
  · rw [Ne, execRepeat_seqNext_res_eq_iff hlive hj hjk.le ht hu]
    omega

end Sys2Proof.Machine
end

section
/-! PROOFS. The checksum family (41_crc.md): the checksum as a fold, its steps without loss, a single wrong bit, the
residue, and the three commands. -/

namespace Sys2Proof.Machine

/-! ## The checksum is a fold (R132) -/

theorem crcFrom_eq_foldl (c : Half) (s : List Byte) : crcFrom c s = s.foldl crcStep c := by
  induction s generalizing c with
  | nil => rfl
  | cons b s ih => exact ih (crcStep c b)

theorem crcFrom_append (c : Half) (s t : List Byte) : crcFrom c (s ++ t) = crcFrom (crcFrom c s) t := by
  simp only [crcFrom_eq_foldl, List.foldl_append]

theorem crc16_append (s t : List Byte) : crc16 (s ++ t) = crcFrom (crc16 s) t := crcFrom_append 0 s t

/-- Settles O10. -/
theorem crcOfAConcatenation : Obligations.CrcOfAConcatenation :=
  ⟨crcFrom_eq_foldl, fun _ => rfl, rfl, crcFrom_append⟩

/-! ## The steps are without loss (R131)

A linear map whose kernel is zero is injective, so a remainder determines the one before it, and a byte's effect
determines the byte. -/

theorem crcShifts_inj {n : Nat} {a b : Half} : crcShifts n a = crcShifts n b ↔ a = b := by
  refine ⟨fun h => ?_, congrArg _⟩
  have hzero : crcShifts n (a ^^^ b) = 0 := by rw [crcShifts_xor, h, BitVec.xor_self]; rfl
  exact BitVec.xor_eq_zero_iff.1 (crcShifts_eq_zero hzero)

theorem crcStep_left_inj {a b : Half} {x : Byte} : crcStep a x = crcStep b x ↔ a = b := by
  rw [crcStep, crcStep, crcShifts_inj, BitVec.xor_left_inj]

theorem crcStep_right_inj {c : Half} {x y : Byte} : crcStep c x = crcStep c y ↔ x = y := by
  rw [crcStep, crcStep, crcShifts_inj, BitVec.xor_right_inj, BitVec.append_left_inj]

theorem crcFrom_inj {a b : Half} {s : List Byte} : crcFrom a s = crcFrom b s ↔ a = b := by
  induction s generalizing a b with
  | nil => rfl
  | cons x s ih => exact ih.trans crcStep_left_inj

/-! ## A single wrong byte (R138) -/

/-- Another byte at one place always gives another checksum. -/
theorem crcFrom_set_eq_iff {c : Half} {s : List Byte} {i : Nat} (h : i < s.length) {b : Byte} :
    crcFrom c (s.set i b) = crcFrom c s ↔ b = s[i] := by
  induction s generalizing c i with
  | nil => cases h
  | cons x s ih =>
    cases i with
    | zero =>
      rw [List.set_cons_zero, crcFrom_cons, crcFrom_cons, crcFrom_inj, crcStep_right_inj, List.getElem_cons_zero]
    | succ i =>
      rw [List.set_cons_succ, crcFrom_cons, crcFrom_cons, ih (Nat.lt_of_succ_lt_succ h), List.getElem_cons_succ]

/-- A bit inside the byte, flipped, changes the byte. -/
theorem xor_bit_ne (b : Byte) {k : Nat} (hk : k < 8) : b ^^^ (1 <<< k) ≠ b := by
  intro h
  have hbit := congrArg (fun v : Byte => v.getLsbD k) h
  rw [BitVec.getLsbD_xor, BitVec.natCast_eq_ofNat, BitVec.getLsbD_ofNat, Nat.one_shiftLeft,
    Nat.testBit_two_pow_self] at hbit
  simp [hk] at hbit

/-- Settles O12: a flipped bit is another byte, and another byte is another checksum. -/
theorem crcDetectsEverySingleBitError : Obligations.CrcDetectsEverySingleBitError := by
  intro s i k hi hk heq
  exact xor_bit_ne s[i] hk ((crcFrom_set_eq_iff hi).1 heq)

/-! ## The residue (R133) -/

/-- While only zero bits reach the test at bit 15, the shifts are a plain left shift. -/
theorem crcShifts_of_clear {n : Nat} {c : Half} (h : ∀ i, 16 ≤ i + n → c.getLsbD i = false) :
    crcShifts n c = c <<< n := by
  induction n generalizing c with
  | zero => simp
  | succ n ih =>
    have hshift : crcShift c = c <<< 1 := by rw [crcShift, h 15 (by omega), if_neg Bool.false_ne_true]
    have hclear (i : Nat) (hi : 16 ≤ i + n) : (c <<< 1).getLsbD i = false := by
      simp [BitVec.getLsbD_shiftLeft, h (i - 1) (by omega)]
    rw [crcShifts_succ, hshift, ih hclear, ← BitVec.shiftLeft_add, Nat.add_comm]

theorem zero_append_shiftLeft {w : Nat} (x : BitVec w) : (0#w ++ x) <<< w = x ++ 0#w := by
  ext i hi
  rw [BitVec.getElem_shiftLeft, BitVec.getElem_append, BitVec.getElem_append]
  by_cases h : i < w
  · simp [h]
  · simp [h, show i - w < w by omega]

/-- The remainder's high byte, fed back, cancels itself, and the low byte takes its place. -/
theorem crcStep_append_self (hi lo : Byte) : crcStep (hi ++ lo) hi = lo ++ (0 : Byte) := by
  have hclear (i : Nat) (h : 16 ≤ i + 8) : ((0 : Byte) ++ lo : Half).getLsbD i = false := by
    rw [BitVec.getLsbD_append, if_neg (by omega)]
    simp
  calc crcStep (hi ++ lo) hi = crcShifts 8 ((0 : Byte) ++ lo) := by
        rw [crcStep, BitVec.xor_append, BitVec.xor_self]
        exact congrArg (fun x : Byte => crcShifts 8 (0 ++ x)) BitVec.xor_zero
    _ = lo ++ (0 : Byte) := (crcShifts_of_clear hclear).trans (zero_append_shiftLeft lo)

theorem hi8_append_lo8 (v : Half) : hi8 v ++ lo8 v = v := BitVec.extractLsb'_append_extractLsb'

/-- A remainder followed by its own two bytes becomes zero: each byte cancels the high half. -/
theorem crcFrom_be16_self (v : Half) : crcFrom v (be16 v) = 0 := by
  have hfirst : crcStep v (hi8 v) = lo8 v ++ (0 : Byte) := by
    simpa only [hi8_append_lo8] using crcStep_append_self (hi8 v) (lo8 v)
  rw [be16, crcFrom_cons, crcFrom_cons, crcFrom_nil, hfirst, crcStep_append_self]
  rfl

theorem crcFrom_be16_eq_zero_iff {c v : Half} : crcFrom c (be16 v) = 0 ↔ c = v := by
  rw [← crcFrom_be16_self v, crcFrom_inj]

theorem crc16_append_be16_eq_zero_iff (s : List Byte) (v : Half) : crc16 (s ++ be16 v) = 0 ↔ crc16 s = v := by
  rw [crc16_append, crcFrom_be16_eq_zero_iff]

/-- Settles O11: the second clause at the sequence's own checksum is the first. -/
theorem crcResidueIsZero : Obligations.CrcResidueIsZero :=
  ⟨fun s => (crc16_append_be16_eq_zero_iff s (crc16 s)).2 rfl, crc16_append_be16_eq_zero_iff⟩

/-! ## The commands (R134, R135, R136) -/

/-- Settles O7. -/
theorem crcInitClearsTheAccumulator : Obligations.CrcInitClearsTheAccumulator :=
  ⟨rfl, fun _ hlive => exec_command_live rfl hlive, fun _ hfault => exec_command_faulted rfl hfault⟩

/-- The check value of the parameter set (R130). -/
theorem crc16_check : crc16 [0x31, 0x32, 0x33, 0x34, 0x35, 0x36, 0x37, 0x38, 0x39] = 0x31C3 := by
  decide +kernel

/-- Settles O8: the command's two outcomes, then the rule's values. -/
theorem crcUpdFeedsOneByte : Obligations.CrcUpdFeedsOneByte :=
  ⟨rfl, fun _ hlive => exec_command_live rfl hlive, fun _ hfault => exec_command_faulted rfl hfault,
    by decide, by decide, by decide, crc16_check⟩

theorem exec_crcBuf_live {s : State} (h : s.errf = false) :
    exec .crcBuf s = .next { s with crc := crcFrom s.crc (payloadOperand s) } :=
  exec_command_live rfl h

/-- Settles O9: the second `CRC.BUF` starts from the first one's remainder, so that `crcFrom_append` joins the two. -/
theorem crcBufFoldsTheBuffer : Obligations.CrcBufFoldsTheBuffer := by
  refine ⟨rfl, fun _ hlive => exec_crcBuf_live hlive, fun _ hfault => exec_command_faulted rfl hfault,
    fun s m n hlive => ⟨_, _, exec_crcBuf_live hlive, exec_crcBuf_live hlive, ?_⟩⟩
  exact (crcFrom_append s.crc (payloadOperand s) (m.read 0 n.toNat)).symm

end Sys2Proof.Machine
end

section
/-! PROOFS. The base64 family (42_base64.md): the bits and the shape of an encoded text, decoding as the inverse of
encoding, and the two commands. -/

namespace Sys2Proof.Machine

/-! ## The four values of three bytes (R142) -/

theorem toNat_append_bytes (b0 b1 b2 : Byte) :
    (b0 ++ b1 ++ b2 : BitVec 24).toNat = b0.toNat * 65536 + b1.toNat * 256 + b2.toNat := by
  rw [BitVec.toNat_append, BitVec.toNat_append, ← Nat.shiftLeft_add_eq_or_of_lt b1.isLt,
    ← Nat.shiftLeft_add_eq_or_of_lt b2.isLt]
  omega

theorem extractLsb'_six (x : BitVec 24) (i : Nat) : x.extractLsb' i 6 = BitVec.ofNat 6 (x.toNat / 2 ^ i % 64) := by
  rw [← Nat.shiftRight_eq_div_pow]
  exact BitVec.eq_of_toNat_eq (by simp)

/-- The 6-bit parts of the number the three bytes make, most significant first. -/
theorem sextets_eq_ofNat {b0 b1 b2 : Byte} {v : Nat} (h : v = b0.toNat * 65536 + b1.toNat * 256 + b2.toNat) :
    sextets b0 b1 b2 =
      (BitVec.ofNat 6 (v / 2 ^ 18), BitVec.ofNat 6 (v / 2 ^ 12 % 64), BitVec.ofNat 6 (v / 2 ^ 6 % 64),
        BitVec.ofNat 6 (v % 64)) := by
  have htop : v / 2 ^ 18 % 64 = v / 2 ^ 18 := by omega
  simp only [sextets, extractLsb'_six, toNat_append_bytes, ← h, htop, Nat.pow_zero, Nat.div_one]

/-! ## The encoder's equations (R142) -/

@[simp] theorem b64enc_nil : b64enc [] = [] := rfl

theorem b64enc_one (b0 : Byte) :
    b64enc [b0] = [b64Char (sextets b0 0 0).1, b64Char (sextets b0 0 0).2.1, padChar, padChar] := rfl

theorem b64enc_two (b0 b1 : Byte) :
    b64enc [b0, b1] =
      [b64Char (sextets b0 b1 0).1, b64Char (sextets b0 b1 0).2.1, b64Char (sextets b0 b1 0).2.2.1, padChar] := rfl

/-! ## The shape of a text (R143) -/

theorem b64enc_length (s : List Byte) : (b64enc s).length = 4 * ((s.length + 2) / 3) := by
  induction s using b64enc.induct with
  | case1 => rfl
  | case2 b0 => simp [b64enc_one]
  | case3 b0 b1 => simp [b64enc_two]
  | case4 b0 b1 b2 rest ih =>
    simp only [b64enc_cons, List.length_cons, ih]
    omega

@[simp] theorem padChar_ne_b64Char (v : BitVec 6) : padChar ≠ b64Char v := (b64Char_ne_padChar v).symm

/-- A text is characters of the alphabet, then the padding its length asks for. -/
theorem exists_b64enc_eq_append_padding (s : List Byte) :
    ∃ body, b64enc s = body ++ List.replicate ((3 - s.length % 3) % 3) padChar ∧ padChar ∉ body := by
  induction s using b64enc.induct with
  | case1 => exact ⟨[], rfl, by simp⟩
  | case2 b0 => exact ⟨[_, _], b64enc_one b0, by simp⟩
  | case3 b0 b1 => exact ⟨[_, _, _], b64enc_two b0 b1, by simp⟩
  | case4 b0 b1 b2 rest ih =>
    obtain ⟨body, htext, hbody⟩ := ih
    have hlen : (b0 :: b1 :: b2 :: rest).length % 3 = rest.length % 3 := Nat.add_mod_right rest.length 3
    rw [b64enc_cons, htext, hlen]
    exact ⟨_ :: _ :: _ :: _ :: body, rfl, by simpa using hbody⟩

/-- Settles O13: the alphabet by evaluation, the bits by `sextets_eq_ofNat`, the shape by induction on the groups. -/
theorem encodedTextLengthAndPadding : Obligations.EncodedTextLengthAndPadding := by
  refine ⟨by decide, fun c v => ⟨b64Char_of_b64Value, ?_⟩, rfl, fun b0 v h => ?_, fun b0 b1 v h => ?_,
    fun b0 b1 b2 rest v h => ?_, fun s => ⟨b64enc_length s, exists_b64enc_eq_append_padding s⟩⟩
  · rintro rfl
    exact b64Value_b64Char v
  · rw [b64enc_one, sextets_eq_ofNat (v := v) (by simpa using h)]
    rfl
  · rw [b64enc_two, sextets_eq_ofNat (v := v) (by simpa using h)]
    rfl
  · rw [b64enc_cons, sextets_eq_ofNat h]
    rfl

/-! ## Decoding inverts encoding, and encoding decoding (R146) -/

/-- The characters of three bytes in front of a text put the three bytes in front of what it decodes to. -/
theorem b64dec_encoded_append {rest out : List Byte} (h : b64dec rest = some out) (b0 b1 b2 : Byte) :
    b64dec (b64Char (sextets b0 b1 b2).1 :: b64Char (sextets b0 b1 b2).2.1 :: b64Char (sextets b0 b1 b2).2.2.1 ::
      b64Char (sextets b0 b1 b2).2.2.2 :: rest) = some (b0 :: b1 :: b2 :: out) := by
  cases rest with
  | nil =>
    cases h
    exact (b64Last_full _ _ _ _ (b64Char_ne_padChar _) (b64Char_ne_padChar _)).trans (b64Full_encoded b0 b1 b2)
  | cons c cs =>
    rw [b64dec_cons _ _ _ _ (List.cons_ne_nil c cs), b64Full_encoded, h]
    rfl

theorem b64dec_b64enc (s : List Byte) : b64dec (b64enc s) = some s := by
  induction s using b64enc.induct with
  | case1 => rfl
  | case2 b0 => exact (b64Last_pad2 _ _).trans (b64Pad2_encoded b0)
  | case3 b0 b1 => exact (b64Last_pad1 _ _ _ (b64Char_ne_padChar _)).trans (b64Pad1_encoded b0 b1)
  | case4 b0 b1 b2 rest ih =>
    rw [b64enc_cons]
    exact b64dec_encoded_append ih b0 b1 b2

/-- An accepted last group is the encoding of one, two or three bytes, by its padding. -/
theorem b64enc_of_b64Last {c0 c1 c2 c3 : Byte} {bs : List Byte} (h : b64Last c0 c1 c2 c3 = some bs) :
    b64enc bs = [c0, c1, c2, c3] := by
  rcases b64Last_cases h with ⟨rfl, rfl, hpad⟩ | ⟨-, rfl, hpad⟩ | ⟨-, -, hfull⟩
  · obtain ⟨b0, rfl, rfl, rfl⟩ := b64Pad2_inv hpad
    exact b64enc_one b0
  · obtain ⟨b0, b1, rfl, rfl, rfl, rfl⟩ := b64Pad1_inv hpad
    exact b64enc_two b0 b1
  · obtain ⟨b0, b1, b2, rfl, rfl, rfl, rfl, rfl⟩ := b64Full_inv hfull
    exact b64enc_cons b0 b1 b2 []

/-- Only the text of `s` decodes to `s`. -/
theorem b64enc_of_b64dec {t s : List Byte} (h : b64dec t = some s) : b64enc s = t := by
  fun_induction b64dec t generalizing s with
  | case1 => cases h; rfl
  | case2 c0 c1 c2 c3 => exact b64enc_of_b64Last h
  | case3 c0 c1 c2 c3 rest _ bs out hrest hfull ih =>
    cases h
    obtain ⟨b0, b1, b2, rfl, rfl, rfl, rfl, rfl⟩ := b64Full_inv hfull
    exact (b64enc_cons b0 b1 b2 out).trans (by rw [ih hrest])
  | case4 => cases h
  | case5 => cases h

theorem b64dec_eq_some_iff {t s : List Byte} : b64dec t = some s ↔ t = b64enc s :=
  ⟨fun h => (b64enc_of_b64dec h).symm, fun h => h ▸ b64dec_b64enc s⟩

/-! ## The decoded length (R146) -/

theorem trailingPads_append_padding {body : List Byte} (h : padChar ∉ body) (n : Nat) :
    trailingPads (body ++ List.replicate n padChar) = n := by
  have hbody : body.reverse.takeWhile (fun c => decide (c = padChar)) = [] := by
    rw [List.takeWhile_eq_nil_iff]
    intro hpos hpad
    exact h (List.mem_reverse.1 (of_decide_eq_true hpad ▸ List.get_mem body.reverse ⟨0, hpos⟩))
  rw [trailingPads, List.reverse_append, List.reverse_replicate, List.takeWhile_append_of_pos (by simp), hbody,
    List.append_nil, List.length_replicate]

theorem trailingPads_b64enc (s : List Byte) : trailingPads (b64enc s) = (3 - s.length % 3) % 3 := by
  obtain ⟨body, htext, hbody⟩ := exists_b64enc_eq_append_padding s
  rw [htext, trailingPads_append_padding hbody]

theorem length_add_trailingPads {t s : List Byte} (h : b64dec t = some s) :
    s.length + trailingPads t = 3 * t.length / 4 := by
  obtain rfl := b64dec_eq_some_iff.1 h
  rw [trailingPads_b64enc, b64enc_length]
  omega

/-- Settles O14: the texts accepted are those the encoder makes, whose length and padding are known. -/
theorem base64RoundTrips : Obligations.Base64RoundTrips := by
  refine ⟨b64dec_b64enc, fun t s => b64enc_of_b64dec, rfl, fun t s h => ⟨?_, length_add_trailingPads h⟩⟩
  rw [b64dec_eq_some_iff.1 h, trailingPads_b64enc]
  omega

/-! ## B64.ENC (R147) -/

/-- A length register that is wide enough reads as the length stored. -/
theorem toNat_ofNat_of_lt {n w : Nat} (h : n < 2 ^ w) : (BitVec.ofNat w n).toNat = n := by
  rw [BitVec.toNat_ofNat, Nat.mod_eq_of_lt h]

/-- A text is at most 87380 characters, as `PLEN` is at most 65535 (R28), so `TLEN` holds its length. -/
theorem b64enc_payloadOperand_length_lt (s : State) : (b64enc (payloadOperand s)).length < 2 ^ 32 := by
  have hplen := s.plen.isLt
  rw [b64enc_length, payloadOperand, Memory.read_length]
  omega

theorem encodeText_fits {s : State} (h : fits (b64enc (payloadOperand s)).length s.caps.tbuf = true) :
    encodeText s =
      { s with
        tbuf := (Memory.unspecified s.draws).write 0 (b64enc (payloadOperand s))
        tlen := BitVec.ofNat 32 (b64enc (payloadOperand s)).length
        draws := s.draws + 1 } :=
  if_pos h

theorem encodeText_too_large {s : State} (h : ¬ fits (b64enc (payloadOperand s)).length s.caps.tbuf = true) :
    encodeText s = faultB64Enc .cfg 3 s :=
  if_neg h

theorem faultB64Enc_raised (c : FaultCode) (info : Half) (s : State) :
    RaisedB64Enc c info s (faultB64Enc c info s) := rfl

/-- Settles O15: a live command has the effect `encodeText`, by whether the text fits `TBUF`. -/
theorem b64EncWritesTheText : Obligations.B64EncWritesTheText := by
  refine ⟨rfl, fun _ hfault => exec_command_faulted rfl hfault, ?_⟩
  rintro s text hlive rfl
  refine ⟨encodeText s, exec_command_live rfl hlive, ?_⟩
  split
  next hfit =>
    rw [encodeText_fits hfit]
    exact ⟨Memory.read_write _ _ _, toNat_ofNat_of_lt (b64enc_payloadOperand_length_lt s), rfl⟩
  next hbig =>
    rw [encodeText_too_large hbig]
    exact faultB64Enc_raised .cfg 3 s

/-! ## B64.DEC (R148) -/

/-- What `TBUF` decodes to is no longer than the text, so `RLEN` holds its length. -/
theorem b64dec_textOperand_length_lt {s : State} {r : List Byte} (h : b64dec (textOperand s) = some r) :
    r.length < 2 ^ 32 := by
  have htlen := s.tlen.isLt
  have hlen := length_add_trailingPads h
  rw [textOperand, Memory.read_length] at hlen
  omega

theorem decodeText_malformed {s : State} (h : b64dec (textOperand s) = none) :
    decodeText s = faultB64Dec .b64 0 s := by
  simp only [decodeText, h]

theorem decodeText_fits {s : State} {r : List Byte} (h : b64dec (textOperand s) = some r)
    (hfit : fits r.length s.caps.rbuf = true) :
    decodeText s = { s with rbuf := s.rbuf.write 0 r, rlen := BitVec.ofNat 32 r.length } := by
  simp only [decodeText, h, hfit, if_true]

theorem decodeText_too_large {s : State} {r : List Byte} (h : b64dec (textOperand s) = some r)
    (hbig : ¬ fits r.length s.caps.rbuf = true) : decodeText s = faultB64Dec .cfg 3 s := by
  simp only [decodeText, h, if_neg hbig]

theorem faultB64Dec_raised (c : FaultCode) (info : Half) (s : State) :
    RaisedB64Dec c info s (faultB64Dec c info s) := rfl

/-- Settles O16: a live command has the effect `decodeText`, by what the text decodes to and whether it fits `RBUF`. -/
theorem b64DecWritesTheBytes : Obligations.B64DecWritesTheBytes := by
  refine ⟨rfl, fun _ hfault => exec_command_faulted rfl hfault, fun s hlive =>
    ⟨decodeText s, exec_command_live rfl hlive, ?_⟩⟩
  split
  next hdec =>
    rw [decodeText_malformed hdec]
    exact faultB64Dec_raised .b64 0 s
  next r hdec =>
    split
    next hfit =>
      rw [decodeText_fits hdec hfit]
      exact ⟨Memory.read_write _ _ _, toNat_ofNat_of_lt (b64dec_textOperand_length_lt hdec),
        fun a ha => Memory.byte_write_outside _ _ _ _ (by omega), rfl⟩
    next hbig =>
      rw [decodeText_too_large hdec hbig]
      exact faultB64Dec_raised .cfg 3 s

end Sys2Proof.Machine
end

section
/-! PROOFS. The frame assembler (43_frame_encode.md): the bytes of a raw frame, the lines of a text with their length,
their content and the column-counter splitter that gives them, and `FRM.ENC`. -/

namespace Sys2Proof.Machine

/-! ## The raw frame (R160 to R162) -/

@[simp] theorem be16_length (v : Half) : (be16 v).length = 2 := rfl
@[simp] theorem headerBytes_length (h : Header) : (headerBytes h).length = 8 := rfl

theorem rawFrame_length (h : Header) (d : List Byte) (c : Half) : (rawFrame h d c).length = d.length + 12 := by
  simp only [rawFrame, List.length_append, be16_length, headerBytes_length]
  omega

theorem frameBytes_length (op : Byte) (group : Half) (seq id : Byte) (d : List Byte) :
    (frameBytes op group seq id d).length = d.length + 12 :=
  rawFrame_length _ _ _

/-- Settles O17: the two counts fit 16 bits, and the layout is that of `rawFrame`. -/
theorem rawFrameLayout : Obligations.RawFrameLayout := by
  intro op group seq id d hd
  refine ⟨BitVec.ofNat 16 (d.length + 10), BitVec.ofNat 16 d.length, _, toNat_ofNat_of_lt (by omega),
    toNat_ofNat_of_lt (by omega), rfl, rfl, frameBytes_length op group seq id d⟩

/-! ## One line after another (R164) -/

@[simp] theorem splitLines_nil (w fuel : Nat) (marker : List Byte) : splitLines w fuel marker [] = [] := by
  cases fuel <;> rfl

theorem splitLines_succ {t : List Byte} (ht : t ≠ []) (w fuel : Nat) (marker : List Byte) :
    splitLines w (fuel + 1) marker t =
      marker ++ t.take w ++ terminator :: splitLines w fuel contMarker (t.drop w) := by
  cases t with
  | nil => exact absurd rfl ht
  | cons c cs => simp [splitLines]

/-- The two markers, of which one begins each line (R88). -/
def lineMarkers : List (List Byte) := [startMarker, contMarker]

/-- What holds of no wire bytes, and of a line in front of the wire bytes of the rest, holds of the wire bytes of a text:
`motive` speaks of the marker of the next line, the text from there on, and the wire bytes from there on. -/
theorem lineSplit_induction {w : Nat} (hw : 1 ≤ w) {motive : List Byte → List Byte → List Byte → Prop}
    (nil : ∀ marker ∈ lineMarkers, motive marker [] [])
    (line : ∀ marker ∈ lineMarkers, ∀ t wire, t ≠ [] → motive contMarker (t.drop w) wire →
      motive marker t (marker ++ t.take w ++ terminator :: wire))
    (t : List Byte) : motive startMarker t (lineSplit t w) := by
  have lines : ∀ fuel, ∀ marker ∈ lineMarkers, ∀ t : List Byte, t.length ≤ fuel →
      motive marker t (splitLines w fuel marker t) := by
    intro fuel
    induction fuel with
    | zero =>
      intro marker hm t ht
      obtain rfl := List.length_eq_zero_iff.1 (Nat.le_zero.1 ht)
      exact nil marker hm
    | succ fuel ih =>
      intro marker hm t ht
      by_cases hnil : t = []
      · subst hnil
        exact nil marker hm
      · rw [splitLines_succ hnil]
        exact line marker hm t _ hnil (ih contMarker (by decide) (t.drop w) (by rw [List.length_drop]; omega))
  exact lines t.length startMarker (by decide) t le_rfl

/-- The first line of the wire bytes. -/
theorem exists_lineSplit_eq {t : List Byte} (ht : t ≠ []) (w : Nat) :
    ∃ wire, lineSplit t w = startMarker ++ t.take w ++ terminator :: wire := by
  obtain ⟨fuel, hfuel⟩ := Nat.exists_eq_succ_of_ne_zero (mt List.length_eq_zero_iff.1 ht)
  exact ⟨_, by rw [lineSplit, hfuel, splitLines_succ ht]⟩

/-! ## The number of wire bytes (R165) -/

/-- Cutting a line of `w` characters off leaves one line less. -/
theorem ceil_div_of_line {n w : Nat} (hw : 1 ≤ w) (hn : 1 ≤ n) : (n + (w - 1)) / w = (n - w + (w - 1)) / w + 1 := by
  rcases Nat.le_total n w with hle | hle
  · have hlast : (n - w + (w - 1)) / w = 0 := Nat.div_eq_of_lt (by omega)
    rw [hlast]
    exact Nat.div_eq_of_lt_le (by omega) (by omega)
  · rw [← Nat.add_div_right _ hw]
    congr 1
    omega

theorem lineMarker_length : ∀ marker ∈ lineMarkers, marker.length = 2 := by decide

/-- Each line adds its marker and its terminator, three bytes, to the characters of the text. -/
theorem lineSplit_length {w : Nat} (hw : 1 ≤ w) (t : List Byte) :
    (lineSplit t w).length = t.length + 3 * ((t.length + (w - 1)) / w) := by
  refine lineSplit_induction hw (motive := fun _ t wire => wire.length = t.length + 3 * ((t.length + (w - 1)) / w))
    (fun _ _ => ?nil) (fun marker hm t wire ht ih => ?line) t
  case nil =>
    have hnone : (0 + (w - 1)) / w = 0 := Nat.div_eq_of_lt (by omega)
    simp only [List.length_nil, hnone]
  case line =>
    have hmarker := lineMarker_length marker hm
    rw [List.length_drop] at ih
    rw [ceil_div_of_line hw (List.length_pos_iff.2 ht)]
    simp only [List.length_append, List.length_cons, List.length_take]
    omega

/-- Settles O18: the text of `d.length + 12` bytes, cut into lines. -/
theorem wireLengthFormula : Obligations.WireLengthFormula := by
  intro op group seq id d linelen _ hlinelen
  rw [lineSplit_length (by omega), b64enc_length, frameBytes_length]

/-! ## The column-counter splitter (R169) -/

/-- From column `col` on, the splitter finishes the line it is in. -/
theorem streamLines_finish_line {w : Nat} {marker : List Byte} (t : List Byte) {col : Nat} (hpos : 0 < col)
    (hcol : col < w) :
    streamLines w col marker t =
      t.take (w - col) ++ terminator :: streamLines w 0 contMarker (t.drop (w - col)) := by
  induction t generalizing col with
  | nil => simp [streamLines, hpos]
  | cons c cs ih =>
    obtain ⟨k, hk⟩ : ∃ k, w - col = k + 1 := ⟨w - col - 1, by omega⟩
    rw [hk, List.take_succ_cons, List.drop_succ_cons, streamLines, if_neg (by omega)]
    by_cases hlast : col + 1 = w
    · obtain rfl : k = 0 := by omega
      simp [hlast]
    · obtain rfl : k = w - (col + 1) := by omega
      rw [if_neg hlast, ih (by omega) (by omega)]
      rfl

theorem streamLines_line {w : Nat} (hw : 1 ≤ w) {t : List Byte} (ht : t ≠ []) (marker : List Byte) :
    streamLines w 0 marker t = marker ++ t.take w ++ terminator :: streamLines w 0 contMarker (t.drop w) := by
  obtain ⟨c, cs, rfl⟩ := List.exists_cons_of_ne_nil ht
  obtain ⟨k, rfl⟩ : ∃ k, w = k + 1 := ⟨w - 1, by omega⟩
  rw [streamLines, if_pos rfl, List.append_assoc, List.take_succ_cons, List.drop_succ_cons]
  by_cases hone : 0 + 1 = k + 1
  · obtain rfl : k = 0 := by omega
    simp
  · rw [if_neg hone, streamLines_finish_line cs (by omega) (by omega)]
    rfl

/-- Settles O19, line by line: the splitter's line is that of `splitLines`. -/
theorem streamingSplitterEqualsLineSplit : Obligations.StreamingSplitterEqualsLineSplit := by
  intro t w hw
  refine lineSplit_induction hw (motive := fun marker t wire => streamLines w 0 marker t = wire)
    (fun _ _ => rfl) (fun marker _ t wire ht ih => ?_) t
  rw [streamLines_line hw ht, ih]

/-! ## The lines carry the text (R89, R171) -/

/-- The bytes of the three wire symbols, which `stripWire` removes (R89). -/
abbrev symbolBytes : List Byte := startMarker ++ contMarker ++ [terminator]

theorem stripWire_append (u v : List Byte) : stripWire (u ++ v) = stripWire u ++ stripWire v :=
  List.filter_append u v

theorem stripWire_terminator_cons (v : List Byte) : stripWire (terminator :: v) = stripWire v := rfl

theorem stripWire_lineMarker : ∀ marker ∈ lineMarkers, stripWire marker = [] := by decide

theorem stripWire_of_no_symbol {t : List Byte} (ht : ∀ c ∈ t, c ∉ symbolBytes) : stripWire t = t :=
  List.filter_eq_self.2 fun c hc => decide_eq_true (ht c hc)

/-- A character of a text is no byte of a wire symbol (R89). -/
theorem textChar_notMem_symbolBytes {c : Byte} (hc : (b64Value c).isSome = true ∨ c = padChar) : c ∉ symbolBytes := by
  rcases hc with hval | rfl
  · intro hsym
    rw [b64Value_of_symbol hsym] at hval
    cases hval
  · decide

theorem stripWire_lineSplit {w : Nat} (hw : 1 ≤ w) {t : List Byte} (ht : ∀ c ∈ t, c ∉ symbolBytes) :
    stripWire (lineSplit t w) = t := by
  refine lineSplit_induction hw (motive := fun _ t wire => (∀ c ∈ t, c ∉ symbolBytes) → stripWire wire = t)
    (fun _ _ _ => rfl) (fun marker hm t wire _ ih hsym => ?_) t ht
  have hline : stripWire (t.take w) = t.take w := stripWire_of_no_symbol fun c hc => hsym c (List.mem_of_mem_take hc)
  have hrest : stripWire wire = t.drop w := ih fun c hc => hsym c (List.mem_of_mem_drop hc)
  rw [stripWire_append, stripWire_append, stripWire_lineMarker marker hm, stripWire_terminator_cons, hline, hrest,
    List.nil_append, List.take_append_drop]

/-- A terminator in front stands for the line before, so that the empty text needs no case of its own. -/
theorem getLast?_terminator_cons_lineSplit {w : Nat} (hw : 1 ≤ w) (t : List Byte) :
    (terminator :: lineSplit t w).getLast? = some terminator := by
  refine lineSplit_induction hw (motive := fun _ _ wire => (terminator :: wire).getLast? = some terminator)
    (fun _ _ => rfl) (fun marker _ t wire _ ih => ?_) t
  rw [← List.cons_append, List.getLast?_append_of_ne_nil _ (List.cons_ne_nil _ _), ih]

theorem getLast?_lineSplit {w : Nat} (hw : 1 ≤ w) {t : List Byte} (ht : t ≠ []) :
    (lineSplit t w).getLast? = some terminator := by
  obtain ⟨wire, hwire⟩ := exists_lineSplit_eq ht w
  have hne : lineSplit t w ≠ [] := hwire ▸ List.cons_ne_nil _ _
  rw [← List.getLast?_append_of_ne_nil [terminator] hne]
  exact getLast?_terminator_cons_lineSplit hw t

theorem terminator_notMem_lineMarker : ∀ marker ∈ lineMarkers, terminator ∉ marker := by decide

theorem splitOn_terminator_line {line : List Byte} (hline : terminator ∉ line) (wire : List Byte) :
    (line ++ terminator :: wire).splitOn terminator = line :: wire.splitOn terminator :=
  List.splitOnP_append_cons_of_forall_mem
    (fun _ hb => beq_false_of_ne (ne_of_mem_of_not_mem hb hline)) terminator (beq_self_eq_true terminator) wire

/-- A line is a marker and at most `w` characters, its terminator not counted. -/
theorem length_of_mem_splitOn_lineSplit {w : Nat} (hw : 1 ≤ w) {t : List Byte} (ht : terminator ∉ t) :
    ∀ line ∈ (lineSplit t w).splitOn terminator, line.length ≤ w + 2 := by
  refine lineSplit_induction hw
    (motive := fun _ t wire => terminator ∉ t → ∀ line ∈ wire.splitOn terminator, line.length ≤ w + 2)
    (fun _ _ _ => ?nil) (fun marker hm t wire _ ih hterm => ?line) t ht
  case nil =>
    intro line hline
    obtain rfl : line = [] := by simpa using hline
    exact Nat.zero_le _
  case line =>
    have hfirst : terminator ∉ marker ++ t.take w := by
      rw [List.mem_append, not_or]
      exact ⟨terminator_notMem_lineMarker marker hm, fun h => hterm (List.mem_of_mem_take h)⟩
    rw [splitOn_terminator_line hfirst, List.forall_mem_cons]
    refine ⟨?_, ih fun h => hterm (List.mem_of_mem_drop h)⟩
    rw [List.length_append, lineMarker_length marker hm, List.length_take]
    omega

/-- Settles O20: no text character is a byte of a symbol, and each property goes along the lines. -/
theorem linesCarryTheText : Obligations.LinesCarryTheText := by
  intro t w hw hne hchars
  have hsym : ∀ c ∈ t, c ∉ symbolBytes := fun c hc => textChar_notMem_symbolBytes (hchars c hc)
  have hterm : terminator ∉ t := fun h => hsym terminator h (by decide)
  obtain ⟨wire, hwire⟩ := exists_lineSplit_eq hne w
  exact ⟨stripWire_lineSplit hw hsym, by rw [hwire]; rfl, getLast?_lineSplit hw hne,
    fun line hline => Nat.succ_le_succ (length_of_mem_splitOn_lineSplit hw hterm line hline)⟩

/-! ## FRM.ENC (R166 to R168) -/

/-- `PLEN` and `LINELEN` have 16 bits, so `WLEN` holds the number of wire bytes. -/
theorem wireBytes_length_lt {s : State} (h : 5 ≤ s.linelen.toNat) : (wireBytes s).length < 2 ^ 32 := by
  have hlinelen := s.linelen.isLt
  have hplen := s.plen.isLt
  have hwire := lineSplit_length (w := s.linelen.toNat - 4) (by omega)
    (b64enc (frameBytes s.txhOp s.txhGroup s.txhSeq s.txhCmd (payloadOperand s)))
  rw [b64enc_length, frameBytes_length, payloadOperand, Memory.read_length] at hwire
  have hlines := Nat.div_le_self
    (4 * ((s.plen.toNat + 12 + 2) / 3) + (s.linelen.toNat - 4 - 1)) (s.linelen.toNat - 4)
  rw [wireBytes, payloadOperand]
  omega

theorem encodeFrame_narrow {s : State} (h : s.linelen.toNat < 5) : encodeFrame s = faultFrmEnc .cfg 1 s := if_pos h

theorem encodeFrame_long {s : State} (hline : ¬ s.linelen.toNat < 5) (h : 65525 < s.plen.toNat) :
    encodeFrame s = faultFrmEnc .cfg 2 s :=
  (if_neg hline).trans (if_pos h)

theorem encodeFrame_too_large {s : State} (hline : ¬ s.linelen.toNat < 5) (hplen : ¬ 65525 < s.plen.toNat)
    (h : fits (wireBytes s).length s.caps.wbuf = false) : encodeFrame s = faultFrmEnc .cfg 3 s :=
  (if_neg hline).trans ((if_neg hplen).trans (if_neg (ne_true_of_eq_false h)))

theorem encodeFrame_fits {s : State} (hline : ¬ s.linelen.toNat < 5) (hplen : ¬ 65525 < s.plen.toNat)
    (h : fits (wireBytes s).length s.caps.wbuf = true) :
    encodeFrame s =
      { s with
        txhLen := s.plen
        crc := encodedCrc s
        wbuf := s.wbuf.write 0 (wireBytes s)
        wlen := BitVec.ofNat 32 (wireBytes s).length
        status := putMtuovf s.status (mtuOverflow (wireBytes s).length s.mtu) } :=
  (if_neg hline).trans ((if_neg hplen).trans (if_pos h))

@[simp] theorem mtuovf_scrambleEncoded (s : State) :
    (scrambleEncoded s).mtuovf = (Config.freeValue 1 (s.draws + 4)).getLsbD 0 := by
  simp [State.mtuovf]

theorem faultFrmEnc_raised (c : FaultCode) (info : Half) (s : State) :
    RaisedFrmEnc c info s (faultFrmEnc c info s) := by
  have hflag : (faultFrmEnc c info s).mtuovf = (Config.freeValue 1 (s.draws + 4)).getLsbD 0 :=
    (mtuovf_raiseFault c info _).trans (mtuovf_scrambleEncoded s)
  rw [RaisedFrmEnc, hflag]
  rfl

/-- Settles O21: a live command has the effect `encodeFrame`, by its three tests in order. -/
theorem frmEncAssemblesTheFrame : Obligations.FrmEncAssemblesTheFrame := by
  refine ⟨rfl, fun _ hfault => exec_command_faulted rfl hfault, ?_⟩
  rintro s d wire hlive rfl hwire
  obtain rfl : wire = wireBytes s := hwire
  refine ⟨encodeFrame s, exec_command_live rfl hlive, ?_⟩
  split
  next hnarrow =>
    rw [encodeFrame_narrow hnarrow]
    exact faultFrmEnc_raised .cfg 1 s
  next hline =>
    split
    next hlong =>
      rw [encodeFrame_long hline hlong]
      exact faultFrmEnc_raised .cfg 2 s
    next hplen =>
      split
      next hbig =>
        rw [encodeFrame_too_large hline hplen hbig]
        exact faultFrmEnc_raised .cfg 3 s
      next hfit =>
        have hflag : State.mtuovf (encodeFrame s) = decide (s.mtu.toNat < (wireBytes s).length) := by
          rw [encodeFrame_fits hline hplen (eq_true_of_ne_false hfit)]
          exact putMtuovf_mtuovf s.status _
        rw [hflag, encodeFrame_fits hline hplen (eq_true_of_ne_false hfit)]
        exact ⟨Memory.read_write _ _ _, toNat_ofNat_of_lt (wireBytes_length_lt (by omega)),
          fun a ha => Memory.byte_write_outside _ _ _ _ (by omega), rfl, rfl⟩

end Sys2Proof.Machine
end

section
/-! PROOFS. The frame disassembler (44_frame_decode.md): the checks on a raw frame and what one that passes them gives,
the round trip with the assembler, errors of one bit in the raw frame and in its text, and `FRM.DEC`. -/

namespace Sys2Proof.Machine

/-! ## Two-byte fields (R92) -/

theorem unbe16_hi8_lo8 (v : Half) : unbe16 (hi8 v) (lo8 v) = v := hi8_append_lo8 v

theorem be16_unbe16 (b0 b1 : Byte) : be16 (unbe16 b0 b1) = [b0, b1] := by
  have hhi : hi8 (unbe16 b0 b1) = b0 := BitVec.extractLsb'_append_eq_left
  have hlo : lo8 (unbe16 b0 b1) = b1 := BitVec.extractLsb'_append_eq_right
  rw [be16, hhi, hlo]

theorem fieldAt_be16_append (v : Half) (post : List Byte) : fieldAt (be16 v ++ post) 0 = v := unbe16_hi8_lo8 v

theorem fieldAt_append_be16 (pre : List Byte) (v : Half) : fieldAt (pre ++ be16 v) pre.length = v := by
  have hfield : fieldAt (pre ++ be16 v) pre.length = unbe16 (hi8 v) (lo8 v) := by simp [fieldAt, byteAt, be16]
  exact hfield.trans (unbe16_hi8_lo8 v)

theorem be16_fieldAt {bs : List Byte} {i : Nat} (h : i + 1 < bs.length) :
    be16 (fieldAt bs i) = (bs.drop i).take 2 := by
  rw [fieldAt, be16_unbe16, byteAt, byteAt, List.getD_eq_getElem _ _ h, List.getD_eq_getElem _ _ (by omega),
    List.drop_eq_getElem_cons (by omega), List.drop_eq_getElem_cons h]
  rfl

/-- A field no byte of which is written keeps its value. -/
theorem fieldAt_set {bs : List Byte} {i j : Nat} (hj : j ≠ i) (hj' : j + 1 ≠ i) (b : Byte) :
    fieldAt (bs.set i b) j = fieldAt bs j := by
  simp only [fieldAt, byteAt, List.getD_eq_getElem?_getD, List.getElem?_set_ne hj.symm, List.getElem?_set_ne hj'.symm]

/-! ## The parts of a raw frame (R180, R184 to R186) -/

/-- The stored checksum is the last two bytes. -/
theorem fieldAt_last {raw : List Byte} (h : 2 ≤ raw.length) :
    fieldAt raw (raw.length - 2) = unbe16 (byteAt raw (raw.length - 2)) (byteAt raw (raw.length - 1)) := by
  rw [fieldAt, show raw.length - 2 + 1 = raw.length - 1 by omega]

/-- Total length, covered bytes and stored checksum are the whole raw frame. -/
theorem raw_eq_append {raw : List Byte} (h : 4 ≤ raw.length) :
    raw = be16 (fieldAt raw 0) ++ coveredBytes raw ++ be16 (fieldAt raw (raw.length - 2)) := by
  have hlast : raw.drop (raw.length - 2) = (raw.drop 2).drop (raw.length - 4) := by
    rw [List.drop_drop]
    congr 1
    omega
  have hall : (raw.drop (raw.length - 2)).take 2 = raw.drop (raw.length - 2) :=
    List.take_of_length_le (by rw [List.length_drop]; omega)
  rw [be16_fieldAt (by omega), be16_fieldAt (by omega), hall, hlast, coveredBytes, List.append_assoc,
    List.take_append_drop, List.drop_zero, List.take_append_drop]

theorem fieldAt_rawFrame_total (h : Header) (d : List Byte) (c : Half) :
    fieldAt (rawFrame h d c) 0 = BitVec.ofNat 16 (d.length + 10) := by
  rw [rawFrame, List.append_assoc, List.append_assoc, fieldAt_be16_append]

theorem fieldAt_rawFrame_last (h : Header) (d : List Byte) (c : Half) :
    fieldAt (rawFrame h d c) ((rawFrame h d c).length - 2) = c := by
  rw [rawFrame, List.length_append, be16_length, Nat.add_sub_cancel, fieldAt_append_be16]

theorem drop_two_rawFrame (h : Header) (d : List Byte) (c : Half) :
    (rawFrame h d c).drop 2 = headerBytes h ++ d ++ be16 c := rfl

theorem coveredBytes_rawFrame (h : Header) (d : List Byte) (c : Half) :
    coveredBytes (rawFrame h d c) = headerBytes h ++ d := by
  have hlen : (rawFrame h d c).length - 4 = (headerBytes h ++ d).length := by
    rw [rawFrame_length, List.length_append, headerBytes_length]
    omega
  rw [coveredBytes, hlen, drop_two_rawFrame, List.take_left]

theorem headerOf_rawFrame (h : Header) (d : List Byte) (c : Half) : headerOf (rawFrame h d c) = h := by
  have hfields : headerOf (rawFrame h d c) =
      { h with
        length := unbe16 (hi8 h.length) (lo8 h.length)
        group := unbe16 (hi8 h.group) (lo8 h.group) } := rfl
  rw [hfields, unbe16_hi8_lo8, unbe16_hi8_lo8]

theorem payload_rawFrame (h : Header) (d : List Byte) (c : Half) :
    ((rawFrame h d c).drop 10).take ((rawFrame h d c).length - 12) = d := by
  rw [rawFrame_length, Nat.add_sub_cancel]
  exact List.take_left

/-! ## The checks, each by its own (R181 to R184) -/

section
variable {raw : List Byte}

theorem rawParse_short (h : raw.length < 12) : rawParse raw = .error (.short, BitVec.ofNat 16 raw.length) := if_pos h

theorem rawParse_wrong_total (hlong : 12 ≤ raw.length) (h : (fieldAt raw 0).toNat ≠ raw.length - 2) :
    rawParse raw = .error (.len, fieldAt raw 0) :=
  (if_neg (Nat.not_lt.2 hlong)).trans (if_pos h)

theorem rawParse_wrong_sum (hlong : 12 ≤ raw.length) (hpre : (fieldAt raw 0).toNat = raw.length - 2)
    (h : crc16 (coveredBytes raw) ≠ fieldAt raw (raw.length - 2)) :
    rawParse raw = .error (.crc, crc16 (coveredBytes raw)) :=
  (if_neg (Nat.not_lt.2 hlong)).trans ((if_neg (not_not_intro hpre)).trans (if_pos h))

/-- A raw frame that passes every check. -/
structure GoodFrame (raw : List Byte) : Prop where
  long : 12 ≤ raw.length
  total_eq : (fieldAt raw 0).toNat = raw.length - 2
  sum_eq : crc16 (coveredBytes raw) = fieldAt raw (raw.length - 2)

theorem GoodFrame.rawParse_eq (h : GoodFrame raw) :
    rawParse raw = .ok
      { header := headerOf raw
        payload := (raw.drop 10).take (raw.length - 12)
        raw := raw
        sum := crc16 (coveredBytes raw) } :=
  (if_neg (Nat.not_lt.2 h.long)).trans
    ((if_neg (not_not_intro h.total_eq)).trans (if_neg (not_not_intro h.sum_eq)))

/-- Nothing else is accepted: each other frame fails one of the three checks. -/
theorem goodFrame_of_rawParse {f : ParsedFrame} (h : rawParse raw = .ok f) : GoodFrame raw := by
  by_cases hlong : 12 ≤ raw.length
  · by_cases hpre : (fieldAt raw 0).toNat = raw.length - 2
    · by_cases hsum : crc16 (coveredBytes raw) = fieldAt raw (raw.length - 2)
      · exact ⟨hlong, hpre, hsum⟩
      · cases (rawParse_wrong_sum hlong hpre hsum).symm.trans h
    · cases (rawParse_wrong_total hlong hpre).symm.trans h
  · cases (rawParse_short (Nat.lt_of_not_le hlong)).symm.trans h

end

theorem frameParse_malformed {t : List Byte} (h : b64dec t = none) : frameParse t = .error (.b64, 0) := by
  simp only [frameParse, h]

theorem frameParse_decoded {t raw : List Byte} (h : b64dec t = some raw) : frameParse t = rawParse raw := by
  simp only [frameParse, h]

theorem frameParse_b64enc (raw : List Byte) : frameParse (b64enc raw) = rawParse raw :=
  frameParse_decoded (b64dec_b64enc raw)

/-- An accepted text is the encoding of a good frame. -/
theorem exists_goodFrame_of_frameParse {t : List Byte} {f : ParsedFrame} (h : frameParse t = .ok f) :
    ∃ raw, t = b64enc raw ∧ GoodFrame raw := by
  cases hdec : b64dec t with
  | none => cases (frameParse_malformed hdec).symm.trans h
  | some raw =>
    exact ⟨raw, b64dec_eq_some_iff.1 hdec, goodFrame_of_rawParse ((frameParse_decoded hdec).symm.trans h)⟩

/-- Settles O22: the text decodes or not, and then one law for each check. -/
theorem frameParseChecksInOrder : Obligations.FrameParseChecksInOrder := by
  intro text
  split
  next hbad => exact frameParse_malformed hbad
  next raw hdec =>
    rw [frameParse_decoded hdec]
    refine ⟨rawParse_short, rawParse_wrong_total, fun hlong hpre hsum => ?wrong, fun hlong hpre hsum => ?good⟩
    case wrong => exact rawParse_wrong_sum hlong hpre (by rwa [fieldAt_last (by omega)])
    case good => exact GoodFrame.rawParse_eq ⟨hlong, hpre, by rwa [fieldAt_last (by omega)]⟩

/-- Settles O29: the total length is read as written, and it is checked before the checksum. -/
theorem wrongPrefixIsALengthMismatch : Obligations.WrongPrefixIsALengthMismatch := by
  intro raw p hlong hp
  have hlen : (be16 p ++ raw.drop 2).length = raw.length := by
    rw [List.length_append, be16_length, List.length_drop]
    omega
  have hfield : fieldAt (be16 p ++ raw.drop 2) 0 = p := fieldAt_be16_append p _
  rw [frameParse_b64enc, rawParse_wrong_total (by rwa [hlen]) (by rwa [hlen, hfield]), hfield]

/-! ## Frames as the assembler lays them out (R188, R189) -/

/-- A frame with the right total length and checksum is good, whatever its header says. -/
theorem goodFrame_rawFrame (h : Header) {d : List Byte} (hd : d.length ≤ 65525) :
    GoodFrame (rawFrame h d (crc16 (headerBytes h ++ d))) where
  long := by rw [rawFrame_length]; omega
  total_eq := by rw [fieldAt_rawFrame_total, rawFrame_length, toNat_ofNat_of_lt (by omega)]; rfl
  sum_eq := by rw [coveredBytes_rawFrame, fieldAt_rawFrame_last]

/-- Settles O23: the checks pass, and each part is read back from where it was laid out. -/
theorem headerIsNotValidated : Obligations.HeaderIsNotValidated := by
  intro h d hd
  rw [frameParse_b64enc, (goodFrame_rawFrame h hd).rawParse_eq, headerOf_rawFrame, payload_rawFrame,
    coveredBytes_rawFrame]

theorem frameParse_frameBytes (op : Byte) (group : Half) (seq id : Byte) {d : List Byte} (hd : d.length ≤ 65525) :
    frameParse (b64enc (frameBytes op group seq id d)) =
      .ok { header := encodeHeader op group seq id d, payload := d, raw := frameBytes op group seq id d
            sum := crc16 (headerBytes (encodeHeader op group seq id d) ++ d) } :=
  headerIsNotValidated (encodeHeader op group seq id d) d hd

theorem textChar_of_mem_b64enc {s : List Byte} : ∀ c ∈ b64enc s, (b64Value c).isSome = true ∨ c = padChar := by
  induction s using b64enc.induct with
  | case1 => simp
  | case2 b0 => simp [b64enc_one]
  | case3 b0 b1 => simp [b64enc_two]
  | case4 b0 b1 b2 rest ih => simpa [b64enc_cons] using ih

/-- No character of a text is a byte of a symbol, so stripping the lines of a text gives the text. -/
theorem stripWire_lineSplit_b64enc {w : Nat} (hw : 1 ≤ w) (s : List Byte) :
    stripWire (lineSplit (b64enc s) w) = b64enc s :=
  stripWire_lineSplit hw fun c hc => textChar_notMem_symbolBytes (textChar_of_mem_b64enc c hc)

theorem encodeHeader_length_toNat (op : Byte) (group : Half) (seq id : Byte) {d : List Byte} (hd : d.length ≤ 65525) :
    (encodeHeader op group seq id d).length.toNat = d.length :=
  toNat_ofNat_of_lt (Nat.lt_of_le_of_lt hd (by decide))

/-- Settles O25: the lines carry the text, the text the raw frame, and the raw frame its parts. -/
theorem frameRoundTrip : Obligations.FrameRoundTrip := by
  intro op group seq id d linelen hd hline
  rw [stripWire_lineSplit_b64enc (by omega)]
  refine ⟨_, frameParse_frameBytes op group seq id hd, ?_⟩
  dsimp only
  exact ⟨rfl, rfl, encodeHeader_length_toNat op group seq id hd, rfl, rfl, rfl, rfl, rfl, rfl⟩

/-! ## FRM.DEC (R187) -/

section
variable {s : State} {onFault : FaultCode → Half → State → State}

theorem decodeFrameWith_bad {code : FaultCode} {info : Half} (h : frameParse (textOperand s) = .error (code, info)) :
    decodeFrameWith onFault s = onFault code info s := by
  simp only [decodeFrameWith, h]

theorem decodeFrameWith_fits {f : ParsedFrame} (h : frameParse (textOperand s) = .ok f)
    (hfit : fits f.raw.length s.caps.rbuf = true) : decodeFrameWith onFault s = deliverFrame f s := by
  simp only [decodeFrameWith, h, hfit, if_true]

theorem decodeFrameWith_too_large {f : ParsedFrame} (h : frameParse (textOperand s) = .ok f)
    (hbig : ¬ fits f.raw.length s.caps.rbuf = true) : decodeFrameWith onFault s = onFault .cfg 3 s := by
  simp only [decodeFrameWith, h, if_neg hbig]

end

theorem faultFrmDec_raised (c : FaultCode) (info : Half) (s : State) : RaisedFrmDec c info s (faultFrmDec c info s) :=
  rfl

theorem deliverFrame_delivered (f : ParsedFrame) (s : State) : DeliveredFrame f s (deliverFrame f s) :=
  ⟨Memory.read_write _ _ _, fun a ha => Memory.byte_write_outside _ _ _ _ (by omega), rfl⟩

/-- Settles O24: a live command has the effect `decodeFrameWith`, by what the text parses to and whether the raw frame
fits `RBUF`. -/
theorem frmDecChecksAndDelivers : Obligations.FrmDecChecksAndDelivers := by
  refine ⟨rfl, fun _ hfault => exec_command_faulted rfl hfault, fun s hlive =>
    ⟨decodeFrameWith faultFrmDec s, exec_command_live rfl hlive, ?_⟩⟩
  split
  next code info hbad =>
    rw [decodeFrameWith_bad hbad]
    exact faultFrmDec_raised code info s
  next f hgood =>
    split
    next hfit =>
      rw [decodeFrameWith_fits hgood hfit]
      exact deliverFrame_delivered f s
    next hbig =>
      rw [decodeFrameWith_too_large hgood hbig]
      exact faultFrmDec_raised .cfg 3 s

/-! ## The round trip on the machine (R189) -/

/-- Part of what a write stored, read back. -/
theorem Memory.read_write_inside (m : Memory) {bs : List Byte} {a n : Nat} (h : a + n ≤ bs.length) :
    (m.write 0 bs).read a n = (bs.drop a).take n := by
  apply List.ext_getElem?
  intro i
  rw [Memory.read_getElem?, List.getElem?_take]
  split
  next hi =>
    have hin : a + i < bs.length := by omega
    have hbyte : (m.write 0 bs).byte (a + i) = bs[a + i] := by
      simpa only [Nat.zero_add] using Memory.byte_write_inside m 0 (a + i) bs hin
    rw [hbyte, List.getElem?_drop, List.getElem?_eq_getElem hin]
  next => rfl

theorem payloadOperand_length (s : State) : (payloadOperand s).length = s.plen.toNat := Memory.read_length _ _ _

/-- The frame the block's registers and `PBUF` describe. -/
abbrev requestFrame (s : State) : List Byte := frameBytes s.txhOp s.txhGroup s.txhSeq s.txhCmd (payloadOperand s)

theorem requestFrame_length (s : State) : (requestFrame s).length = s.plen.toNat + 12 := by
  rw [frameBytes_length, payloadOperand_length]

theorem requestFrame_payload (s : State) : ((requestFrame s).drop 10).take s.plen.toNat = payloadOperand s := by
  have hpayload := payload_rawFrame (encodeHeader s.txhOp s.txhGroup s.txhSeq s.txhCmd (payloadOperand s))
    (payloadOperand s) (encodedCrc s)
  rwa [rawFrame_length, Nat.add_sub_cancel, payloadOperand_length] at hpayload

section
variable {s : State} (hline : 5 ≤ s.linelen.toNat) (hplen : s.plen.toNat ≤ 65525)
  (hfit : fits (wireBytes s).length s.caps.wbuf = true)
include hplen

theorem frameParse_requestFrame :
    frameParse (b64enc (requestFrame s)) =
      .ok { header := encodeHeader s.txhOp s.txhGroup s.txhSeq s.txhCmd (payloadOperand s)
            payload := payloadOperand s, raw := requestFrame s, sum := encodedCrc s } :=
  frameParse_frameBytes _ _ _ _ (by rwa [payloadOperand_length])

include hline hfit

theorem encodeFrame_fits_errf : (encodeFrame s).errf = s.errf := by
  rw [encodeFrame_fits (by omega) (by omega) hfit]
  simp [State.errf]

theorem encodeFrame_fits_crc : (encodeFrame s).crc = encodedCrc s := by
  rw [encodeFrame_fits (by omega) (by omega) hfit]

theorem encodeFrame_fits_caps : (encodeFrame s).caps = s.caps := by
  rw [encodeFrame_fits (by omega) (by omega) hfit]

theorem wireOperand_encodeFrame_fits : wireOperand (encodeFrame s) = wireBytes s := by
  rw [encodeFrame_fits (by omega) (by omega) hfit, wireOperand, toNat_ofNat_of_lt (wireBytes_length_lt hline),
    Memory.read_write]

/-- What `FRM.ENC` leaves in `WBUF`, stripped, is the text of the frame. -/
theorem stripWire_wireOperand_encodeFrame :
    stripWire (wireOperand (encodeFrame s)) = b64enc (requestFrame s) := by
  rw [wireOperand_encodeFrame_fits hline hplen hfit, wireBytes, stripWire_lineSplit_b64enc (by omega)]

end

/-- The state with a text put into `TBUF` and `TLEN`. -/
abbrev loadText (text : List Byte) (t : State) : State :=
  { t with tbuf := t.tbuf.write 0 text, tlen := BitVec.ofNat 32 text.length }

theorem textOperand_loadText {text : List Byte} (h : text.length < 2 ^ 32) (t : State) :
    textOperand (loadText text t) = text := by
  rw [textOperand, toNat_ofNat_of_lt h, Memory.read_write]

theorem exec_frmDec_delivers {s : State} {f : ParsedFrame} (hlive : s.errf = false)
    (hparse : frameParse (textOperand s) = .ok f) (hfit : fits f.raw.length s.caps.rbuf = true) :
    exec .frmDec s = .next (deliverFrame f s) := by
  rw [exec_command_live rfl hlive, ← decodeFrameWith_fits hparse hfit]
  rfl

/-- Settles O26: `FRM.ENC` leaves the text of the request's frame, and `FRM.DEC` delivers the frame of a text. -/
theorem frmEncThenFrmDecReturnsTheRequest : Obligations.FrmEncThenFrmDecReturnsTheRequest := by
  rintro s t text hlive hline hplen hcaps hexec rfl
  obtain rfl : encodeFrame s = t := Host.Outcome.next.inj ((exec_command_live rfl hlive).symm.trans hexec)
  have hwire : fits (wireBytes s).length s.caps.wbuf = true := by rw [hcaps]; rfl
  have hlive' : (encodeFrame s).errf = false := (encodeFrame_fits_errf hline hplen hwire).trans hlive
  have hcaps' : (encodeFrame s).caps = Config.unbounded := (encodeFrame_fits_caps hline hplen hwire).trans hcaps
  have hshort : (b64enc (requestFrame s)).length < 2 ^ 32 := by
    rw [b64enc_length, requestFrame_length]
    omega
  rw [stripWire_wireOperand_encodeFrame hline hplen hwire]
  have hparse := frameParse_requestFrame hplen
  rw [← textOperand_loadText hshort (encodeFrame s)] at hparse
  have hplen_eq : BitVec.ofNat 16 s.plen.toNat = s.plen := by rw [BitVec.ofNat_toNat, BitVec.setWidth_eq]
  have hrplen : BitVec.ofNat 16 ((requestFrame s).length - 12) = s.plen := by
    rw [requestFrame_length, Nat.add_sub_cancel, hplen_eq]
  refine ⟨_, exec_frmDec_delivers hlive' hparse (by rw [hcaps']; rfl), hlive', rfl, rfl, ?len, rfl, rfl, rfl, hrplen,
    ?crc, ?payload⟩
  case len => exact (congrArg (BitVec.ofNat 16) (payloadOperand_length s)).trans hplen_eq
  case crc => rw [deliverFrame_crc, encodeFrame_fits_crc hline hplen hwire]
  case payload =>
    rw [deliverFrame_rplen, hrplen, deliverFrame_rbuf, Memory.read_write_inside _ (by rw [requestFrame_length]; omega)]
    exact requestFrame_payload s

/-! ## One wrong bit in the raw frame (R190) -/

theorem coveredBytes_set {raw : List Byte} {i : Nat} (hlo : 2 ≤ i) (b : Byte) :
    coveredBytes (raw.set i b) = (coveredBytes raw).set (i - 2) b := by
  obtain ⟨j, rfl⟩ := Nat.exists_eq_add_of_le hlo
  rw [coveredBytes, coveredBytes, List.length_set, List.drop_set, if_neg (by omega), List.take_set]

theorem coveredBytes_getElem {raw : List Byte} {i : Nat} (hlo : 2 ≤ i) (hhi : i < raw.length - 2) :
    ∃ h : i - 2 < (coveredBytes raw).length, (coveredBytes raw)[i - 2] = raw[i] := by
  have h : i - 2 < (coveredBytes raw).length := by
    rw [coveredBytes, List.length_take, List.length_drop]
    omega
  refine ⟨h, ?_⟩
  simp only [coveredBytes, List.getElem_take, List.getElem_drop, Nat.add_sub_cancel' hlo]

/-- Settles O27: total length and stored checksum stand as they were, and another covered byte is another checksum. -/
theorem flippedRawBitIsAChecksumMismatch : Obligations.FlippedRawBitIsAChecksumMismatch := by
  intro raw f i k hi hparse hlo hhi hk
  obtain ⟨hlong, hpre, hsum⟩ := goodFrame_of_rawParse hparse
  obtain ⟨hcov, hbyte⟩ := coveredBytes_getElem hlo hhi
  have hchanged : crc16 (coveredBytes (raw.set i (raw[i] ^^^ (1 <<< k)))) ≠ crc16 (coveredBytes raw) := by
    rw [coveredBytes_set hlo, ← hbyte]
    exact crcDetectsEverySingleBitError (coveredBytes raw) (i - 2) k hcov hk
  rw [frameParse_b64enc]
  refine ⟨_, rawParse_wrong_sum (by rwa [List.length_set]) ?samePrefix ?otherSum⟩
  case samePrefix => rw [fieldAt_set (by omega) (by omega), List.length_set, hpre]
  case otherSum => rwa [List.length_set, fieldAt_set (by omega) (by omega), ← hsum]

/-! ## Errors within two bytes (R190) -/

/-- Two bytes' update is linear in remainder and bytes together. -/
theorem crcFrom_be16_xor (a b v w : Half) :
    crcFrom (a ^^^ b) (be16 (v ^^^ w)) = crcFrom a (be16 v) ^^^ crcFrom b (be16 w) := by
  have hbytes : be16 (v ^^^ w) = [hi8 v ^^^ hi8 w, lo8 v ^^^ lo8 w] := by
    simp only [be16, hi8, lo8, BitVec.extractLsb'_xor]
  rw [hbytes]
  simp only [be16, crcFrom_cons, crcFrom_nil, crcStep_xor]

/-- The checksum finds every error in two bytes: no two pairs of bytes have the same effect. -/
theorem crcFrom_be16_inj {c v w : Half} : crcFrom c (be16 v) = crcFrom c (be16 w) ↔ v = w := by
  refine ⟨fun h => ?_, fun h => h ▸ rfl⟩
  have hzero : crcFrom (c ^^^ c) (be16 (v ^^^ w)) = 0 := by
    rw [crcFrom_be16_xor, h, BitVec.xor_self]
    rfl
  rw [crcFrom_be16_eq_zero_iff, BitVec.xor_self] at hzero
  exact BitVec.xor_eq_zero_iff.1 hzero.symm

/-- An error in at most two bytes does not pass the checksum. -/
theorem eq_of_crcFrom_eq {c : Half} {u v : List Byte} (hlen : u.length = v.length) (htwo : u.length ≤ 2)
    (h : crcFrom c u = crcFrom c v) : u = v := by
  match u, v with
  | [], [] => rfl
  | [x], [y] => rw [crcStep_right_inj.1 h]
  | [x0, x1], [y0, y1] =>
    rw [← be16_unbe16, ← be16_unbe16] at h ⊢
    rw [crcFrom_be16_inj.1 h]

/-- A good frame leaves the remainder zero when the register starts at the total length, which cancels itself as the
stored checksum cancels that of the bytes between. -/
theorem GoodFrame.crcFrom_total {raw : List Byte} (h : GoodFrame raw) : crcFrom (fieldAt raw 0) raw = 0 := by
  obtain ⟨hlong, -, hsum⟩ := h
  have hparts := raw_eq_append (raw := raw) (by omega)
  calc crcFrom (fieldAt raw 0) raw
      = crcFrom (fieldAt raw 0) (be16 (fieldAt raw 0) ++ (coveredBytes raw ++ be16 (crc16 (coveredBytes raw)))) := by
        rw [hsum, ← List.append_assoc, ← hparts]
    _ = crc16 (coveredBytes raw ++ be16 (crc16 (coveredBytes raw))) := by
        rw [crcFrom_append, crcFrom_be16_self]
        rfl
    _ = 0 := (crc16_append_be16_eq_zero_iff _ _).2 rfl

theorem GoodFrame.fieldAt_zero {raw : List Byte} (h : GoodFrame raw) :
    fieldAt raw 0 = BitVec.ofNat 16 (raw.length - 2) := by
  rw [← h.total_eq, BitVec.ofNat_toNat, BitVec.setWidth_eq]

theorem fieldAt_append_left {pre : List Byte} (h : 2 ≤ pre.length) (post : List Byte) :
    fieldAt (pre ++ post) 0 = fieldAt pre 0 := by
  match pre with
  | _ :: _ :: _ => rfl

/-- Two good frames that differ in at most two neighbouring bytes are one frame. -/
theorem GoodFrame.eq_of_differ_in_two {pre u v post : List Byte} (hs : GoodFrame (pre ++ u ++ post))
    (ht : GoodFrame (pre ++ v ++ post)) (hlen : u.length = v.length) (htwo : u.length ≤ 2) : u = v := by
  have htotal : fieldAt (pre ++ v ++ post) 0 = fieldAt (pre ++ u ++ post) 0 := by
    rw [hs.fieldAt_zero, ht.fieldAt_zero]
    simp only [List.length_append, hlen]
  have hzero := hs.crcFrom_total.trans ht.crcFrom_total.symm
  rw [htotal, crcFrom_append, crcFrom_append _ (pre ++ v), crcFrom_inj, crcFrom_append, crcFrom_append] at hzero
  exact eq_of_crcFrom_eq hlen htwo hzero

/-- Two good frames that differ only in their last three bytes have one length, which each states at its start. -/
theorem GoodFrame.length_eq_of_differ_at_end {pre u v : List Byte} (hs : GoodFrame (pre ++ u))
    (ht : GoodFrame (pre ++ v)) (hu : u.length ≤ 3) : u.length = v.length := by
  have hpre : 2 ≤ pre.length := by
    have hlong := hs.long
    rw [List.length_append] at hlong
    omega
  have hlens : (pre ++ u).length - 2 = (pre ++ v).length - 2 := by
    rw [← hs.total_eq, ← ht.total_eq, fieldAt_append_left hpre, fieldAt_append_left hpre]
  rw [List.length_append, List.length_append] at hlens
  omega

/-! ## One wrong character of a text (R190) -/

theorem b64enc_inj {s t : List Byte} : b64enc s = b64enc t ↔ s = t :=
  ⟨fun h => Option.some.inj (by rw [← b64dec_b64enc s, h, b64dec_b64enc]), congrArg _⟩

theorem b64Char_inj {v w : BitVec 6} : b64Char v = b64Char w ↔ v = w :=
  ⟨fun h => Option.some.inj (by rw [← b64Value_b64Char v, h, b64Value_b64Char]), congrArg _⟩

/-- The first two values of three bytes hold the first byte. -/
theorem firstByte_of_sextets (b0 b1 b2 : Byte) :
    ((sextets b0 b1 b2).1 ++ (sextets b0 b1 b2).2.1 : BitVec 12).extractLsb' 4 8 = b0 := by
  apply BitVec.eq_of_getLsbD_eq
  intro i hi
  simp only [sextets, BitVec.getLsbD_append, BitVec.getLsbD_extractLsb']
  interval_cases i <;> simp

/-- The last two values of three bytes hold the last byte. -/
theorem lastByte_of_sextets (b0 b1 b2 : Byte) :
    ((sextets b0 b1 b2).2.2.1 ++ (sextets b0 b1 b2).2.2.2 : BitVec 12).extractLsb' 0 8 = b2 := by
  apply BitVec.eq_of_getLsbD_eq
  intro i hi
  simp only [sextets, BitVec.getLsbD_append, BitVec.getLsbD_extractLsb']
  interval_cases i <;> simp

/-- How two byte sequences differ whose texts differ in one character: in at most two neighbouring bytes, or, when a
padding character is made or unmade, in the last group. -/
def DifferByOneCharacter (s t : List Byte) : Prop :=
  ∃ pre u v post, s = pre ++ u ++ post ∧ t = pre ++ v ++ post ∧
    (u.length = v.length ∧ u.length ≤ 2 ∨ post = [] ∧ u.length ≤ 3 ∧ u.length ≠ v.length)

theorem DifferByOneCharacter.append_left {s t : List Byte} (h : DifferByOneCharacter s t) (front : List Byte) :
    DifferByOneCharacter (front ++ s) (front ++ t) := by
  obtain ⟨pre, u, v, post, rfl, rfl, hdiff⟩ := h
  exact ⟨front ++ pre, u, v, post, by simp only [List.append_assoc], by simp only [List.append_assoc], hdiff⟩

theorem DifferByOneCharacter.of_last_group {s t : List Byte} (hs : s.length ≤ 3)
    (h : s.length = t.length → s.length ≤ 2) : DifferByOneCharacter s t := by
  refine ⟨[], s, t, [], by simp, by simp, ?_⟩
  by_cases hlen : s.length = t.length
  · exact .inl ⟨hlen, h hlen⟩
  · exact .inr ⟨rfl, hs, hlen⟩

/-- A wrong character in a full group is one of the first two, and the last byte is as it was, or one of the last two,
and the first byte is. -/
theorem DifferByOneCharacter.of_full_group {b0 b1 b2 c0 c1 c2 : Byte}
    (h : ((sextets b0 b1 b2).1 = (sextets c0 c1 c2).1 ∧ (sextets b0 b1 b2).2.1 = (sextets c0 c1 c2).2.1) ∨
      ((sextets b0 b1 b2).2.2.1 = (sextets c0 c1 c2).2.2.1 ∧ (sextets b0 b1 b2).2.2.2 = (sextets c0 c1 c2).2.2.2))
    (rest : List Byte) : DifferByOneCharacter (b0 :: b1 :: b2 :: rest) (c0 :: c1 :: c2 :: rest) := by
  rcases h with ⟨h0, h1⟩ | ⟨h2, h3⟩
  · obtain rfl : b0 = c0 := by rw [← firstByte_of_sextets b0 b1 b2, h0, h1, firstByte_of_sextets]
    exact ⟨[b0], [b1, b2], [c1, c2], rest, rfl, rfl, .inl ⟨rfl, le_rfl⟩⟩
  · obtain rfl : b2 = c2 := by rw [← lastByte_of_sextets b0 b1 b2, h2, h3, lastByte_of_sextets]
    exact ⟨[], [b0, b1], [c0, c1], b2 :: rest, rfl, rfl, .inl ⟨rfl, le_rfl⟩⟩

/-- By induction on the groups: the wrong character is one of the first group's four, or in the text of the rest. -/
theorem differByOneCharacter_of_set {s t : List Byte} {i : Nat} {c : Byte} (h : (b64enc s).set i c = b64enc t) :
    DifferByOneCharacter s t := by
  induction s using b64enc.induct generalizing t i with
  | case1 => exact .of_last_group (by simp) (by simp)
  | case2 b0 => exact .of_last_group (by simp) (by simp)
  | case3 b0 b1 => exact .of_last_group (by simp) (by simp)
  | case4 b0 b1 b2 rest ih =>
    have hlen := congrArg List.length h
    rw [List.length_set, b64enc_length, b64enc_length, List.length_cons, List.length_cons, List.length_cons] at hlen
    match t with
    | [] | [_] | [_, _] =>
      simp only [List.length_nil, List.length_cons] at hlen
      exact .of_last_group (by simp; omega) (by simp)
    | c0 :: c1 :: c2 :: rest' =>
      rw [b64enc_cons, b64enc_cons] at h
      rcases i with _ | _ | _ | _ | i
      all_goals
        simp only [List.set_cons_zero, List.set_cons_succ, List.cons.injEq, b64Char_inj, b64enc_inj] at h
      · obtain ⟨-, -, h2, h3, rfl⟩ := h
        exact .of_full_group (.inr ⟨h2, h3⟩) rest
      · obtain ⟨-, -, h2, h3, rfl⟩ := h
        exact .of_full_group (.inr ⟨h2, h3⟩) rest
      · obtain ⟨h0, h1, -, -, rfl⟩ := h
        exact .of_full_group (.inl ⟨h0, h1⟩) rest
      · obtain ⟨h0, h1, -, -, rfl⟩ := h
        exact .of_full_group (.inl ⟨h0, h1⟩) rest
      · obtain ⟨h0, h1, h2, h3, hrest⟩ := h
        have hgroup : [b0, b1, b2] = [c0, c1, c2] := b64enc_inj.1 (by simp only [b64enc_cons, h0, h1, h2, h3])
        obtain ⟨rfl, rfl, rfl⟩ : b0 = c0 ∧ b1 = c1 ∧ b2 = c2 := by simpa using hgroup
        exact (ih hrest).append_left [b0, b1, b2]

/-- Settles O28: were both texts accepted, their frames would differ in two neighbouring bytes, which the checksum
excludes, or in their lengths, which the total length excludes. -/
theorem flippedTextBitIsNeverAccepted : Obligations.FlippedTextBitIsNeverAccepted := by
  intro text f g i k hi hf hk hg
  obtain ⟨s, rfl, hs⟩ := exists_goodFrame_of_frameParse hf
  obtain ⟨t, htext, ht⟩ := exists_goodFrame_of_frameParse hg
  have hne : s ≠ t := by
    rintro rfl
    exact xor_bit_ne _ hk ((List.getElem_set_self (by rwa [List.length_set])).symm.trans (List.getElem_of_eq htext _))
  obtain ⟨pre, u, v, post, rfl, rfl, ⟨hlen, htwo⟩ | ⟨rfl, hthree, hlen⟩⟩ := differByOneCharacter_of_set htext
  · exact hne (by rw [hs.eq_of_differ_in_two ht hlen htwo])
  · rw [List.append_nil] at hs ht
    exact hlen (hs.length_eq_of_differ_at_end ht hthree)

end Sys2Proof.Machine
end

section
/-! PROOFS. The exchange family (45_transceive.md): the block's own step in each state, the events that end an exchange,
a line as it arrives, a whole exchange, and the first line of a response in several lines. -/

namespace Sys2Proof.Machine

/-! ## The block's own step, state by state (R203 to R210, R213) -/

section
variable {s : State}

theorem machineTurn_goes_on (hb : s.xstate.busy = true) (ht : (xcvStep s).xstate.busy = true) :
    machineTurn s = .next (xcvStep s) := by
  rw [machineTurn_busy hb, operationDone_busy ht]

theorem xcvStep_opening (hx : s.xstate = .opening) : xcvStep s = openStep s := by simp only [xcvStep, hx]

theorem xcvStep_flush (hx : s.xstate = .flush) : xcvStep s = flushStep s := by simp only [xcvStep, hx]

theorem xcvStep_write (hx : s.xstate = .write) : xcvStep s = writeStep s := by simp only [xcvStep, hx]

theorem xcvStep_decode (hx : s.xstate = .decode) : xcvStep s = decodeStep s := by simp only [xcvStep, hx]

theorem xcvStep_receiving (hr : s.xstate.receiving = true) : xcvStep s = receiveStep s := by
  cases hx : s.xstate with
  | waitM0 | waitM1 | body => simp only [xcvStep, hx]
  | _ =>
    rw [hx] at hr
    cases hr

theorem machineTurn_opening (hx : s.xstate = .opening) :
    machineTurn s = .next { s with portOpen := true, xstate := .flush } := by
  rw [machineTurn_goes_on (by rw [hx]; rfl) (by rw [xcvStep_opening hx]; rfl), xcvStep_opening hx]
  rfl

theorem machineTurn_flush (hx : s.xstate = .flush) :
    machineTurn s = .next { s with rxfifo := [], widx := 0, xstate := .write } := by
  rw [machineTurn_goes_on (by rw [hx]; rfl) (by rw [xcvStep_flush hx]; rfl), xcvStep_flush hx]
  rfl

theorem writeStep_sends (h : s.widx.toNat < s.wlen.toNat) :
    writeStep s = { s with txout := s.txout ++ [s.wbuf.byte s.widx.toNat], widx := s.widx + 1 } := if_pos h

theorem writeStep_finishes (h : s.wlen.toNat ≤ s.widx.toNat) :
    writeStep s = { s with tlen := 0, xstate := .waitM0, tmr := timerAfter s.rxfifo s } :=
  (if_neg (Nat.not_lt.2 h)).trans (beginWait_receiving rfl)

theorem machineTurn_sends (hx : s.xstate = .write) (h : s.widx.toNat < s.wlen.toNat) :
    machineTurn s = .next { s with txout := s.txout ++ [s.wbuf.byte s.widx.toNat], widx := s.widx + 1 } := by
  have hb : s.xstate.busy = true := by rw [hx]; rfl
  rw [machineTurn_goes_on hb (by rw [xcvStep_write hx, writeStep_sends h]; exact hb), xcvStep_write hx,
    writeStep_sends h]

theorem machineTurn_frame_sent (hx : s.xstate = .write) (h : s.wlen.toNat ≤ s.widx.toNat) :
    machineTurn s = .next { s with tlen := 0, xstate := .waitM0, tmr := timerAfter s.rxfifo s } := by
  have hstep := (xcvStep_write hx).trans (writeStep_finishes h)
  rw [machineTurn_goes_on (by rw [hx]; rfl) (by rw [hstep]; rfl), hstep]

/-- In a receiving state the first byte of the queue is popped and taken (R206). -/
theorem machineTurn_takes {b : Byte} {q : List Byte} (hr : s.xstate.receiving = true) (hq : s.rxfifo = b :: q) :
    machineTurn s = .next (operationDone s (takeByte b { s with rxfifo := q })) := by
  have hpop : receiveStep s = takeByte b { s with rxfifo := q } := by simp only [receiveStep, hq]
  rw [machineTurn_busy (receiving_busy hr), xcvStep_receiving hr, hpop]

theorem machineTurn_takes_on {b : Byte} {q : List Byte} {t : State} (hr : s.xstate.receiving = true)
    (hq : s.rxfifo = b :: q) (ht : takeByte b { s with rxfifo := q } = t) (hb : t.xstate.busy = true) :
    machineTurn s = .next t := by
  rw [machineTurn_takes hr hq, ht, operationDone_busy hb]

/-- With the queue empty the wait goes on (R218). -/
theorem machineTurn_waits (hr : s.xstate.receiving = true) (hq : s.rxfifo = []) : machineTurn s = .next s := by
  have hstep : xcvStep s = s := by simp only [xcvStep_receiving hr, receiveStep, hq]
  rw [machineTurn_goes_on (receiving_busy hr) (by rw [hstep]; exact receiving_busy hr), hstep]

end

/-! ## A fault of the exchange ends it and stops the host (R23, R212) -/

theorem operationDone_raised {s : State} (hlive : s.errf = false) (c : FaultCode) (info : Half) (u : State) :
    RaisedXcv c info { u with stopped := true } (operationDone s (faultXcv c info u)) := by
  have hstop : operationDone s (faultXcv c info u) = { faultXcv c info u with stopped := true } :=
    operationDone_fault rfl hlive (errf_raiseFault _ _ _)
  rw [hstop]
  rfl

theorem exchangeDone_raised {s : State} (hb : s.xstate.busy = true) (hlive : s.errf = false) (c : FaultCode)
    (info : Half) (u : State) :
    RaisedXcv c info { u with stopped := true } (exchangeDone s (faultXcv c info u)) := by
  rw [exchangeDone_busy hb]
  exact operationDone_raised hlive c info u

/-- A byte that the receiver does not accept. -/
theorem step_takes_raised {s : State} {b : Byte} {q : List Byte} {c : FaultCode} {info : Half}
    (hlive : s.errf = false) (henv : s.env = []) (hr : s.xstate.receiving = true) (hq : s.rxfifo = b :: q)
    (ht : takeByte b { s with rxfifo := q } = faultXcv c info { s with rxfifo := q }) :
    ∃ t, step s = .next t ∧ RaisedXcv c info { s with rxfifo := q, stopped := true } t := by
  refine ⟨_, (step_eq_machineTurn henv).trans (machineTurn_takes hr hq), ?_⟩
  rw [ht]
  exact operationDone_raised hlive c info { s with rxfifo := q }

/-! ## XCV, OPENING, FLUSH, WRITE (R202 to R205) -/

theorem hostTurn_performs {s t : State} {op : BusOp} (hrun : s.stopped = false) (hop : s.program[s.pc]? = some op)
    (hbus : busOp op s = .next t) : hostTurn s = .next (operationDone s t) := by
  simp [hostTurn, hrun, hop, hbus]

/-- The host's write of the code of `XCV` begins the exchange, whatever the script holds. -/
theorem machineTurn_xcv {s : State} (hlive : s.errf = false) (hidle : s.xstate.busy = false)
    (hrun : s.stopped = false) (hop : s.program[s.pc]? = some (.wr 0 0x50)) :
    machineTurn s = .next { s with cmd := 0x50, xstate := .opening } := by
  have hissue : issueCommand 0x50 s = .next { s with cmd := 0x50, xstate := .opening } :=
    (issueCommand_ok hlive rfl).trans (exec_command_live (i := .xcv) rfl hlive)
  have hbus : busOp (.wr 0 0x50) s = .next { s with cmd := 0x50, xstate := .opening } :=
    (busOp_command 0x50 s).trans hissue
  rw [machineTurn_host hidle, hostTurn_performs hrun hop hbus, operationDone_busy rfl]

/-- Settles O31. -/
theorem xcvBeginsAnExchange : Obligations.XcvBeginsAnExchange := by
  refine ⟨rfl, fun _ hlive => exec_command_live rfl hlive, fun _ hfault => exec_command_faulted rfl hfault, ?_⟩
  rintro s hlive ⟨hidle, hrun, henv, hop⟩
  exact (step_eq_machineTurn henv).trans (machineTurn_xcv hlive hidle hrun hop)

/-- Settles O32. -/
theorem xcvOpensThenFlushes : Obligations.XcvOpensThenFlushes := by
  refine ⟨fun s henv hx => ?_, fun s rest hlive henv hx => ?_, fun s henv hx => ?_⟩
  · exact (step_eq_machineTurn henv).trans (machineTurn_opening hx)
  · have hb : s.xstate.busy = true := by rw [hx]; rfl
    exact ⟨_, step_eq_envTurn henv (decide_eq_true hx),
      exchangeDone_raised (s := { s with env := rest }) hb hlive .ioOpen 0 _⟩
  · exact (step_eq_machineTurn henv).trans (machineTurn_flush hx)

/-- Settles O33. -/
theorem xcvWritesTheFrame : Obligations.XcvWritesTheFrame := by
  refine ⟨fun s henv hx h => ?_, fun s rest hlive henv hx h => ?_, fun s henv hx h => ?_⟩
  · exact (step_eq_machineTurn henv).trans (machineTurn_sends hx h)
  · have hb : s.xstate.busy = true := by rw [hx]; rfl
    have hindex : BitVec.ofNat 16 (s.widx.toNat % 65536) = s.widx.setWidth 16 :=
      BitVec.eq_of_toNat_eq (by simp)
    rw [hindex]
    exact ⟨_, step_eq_envTurn henv (by simp [EnvEvent.enabled, hx, h]),
      exchangeDone_raised (s := { s with env := rest }) hb hlive .ioWrite _ _⟩
  · exact (step_eq_machineTurn henv).trans (machineTurn_frame_sent hx h)

/-! ## WAIT_M0, WAIT_M1, BODY (R206 to R209) -/

/-- The detail of a marker mismatch: the index in the high byte, the byte received in the low one (R206, R207). -/
theorem append_byte_eq_ofNat (i b : Byte) : (i ++ b : Half) = BitVec.ofNat 16 (i.toNat * 256 + b.toNat) := by
  apply BitVec.eq_of_toNat_eq
  rw [BitVec.toNat_append, ← Nat.shiftLeft_add_eq_or_of_lt b.isLt, Nat.shiftLeft_eq, BitVec.toNat_ofNat]
  omega

theorem takeByte_waitM0_raises {s : State} {b : Byte} (hx : s.xstate = .waitM0) (hb : b ≠ 0x06) :
    takeByte b s = faultXcv .marker (BitVec.ofNat 16 b.toNat) s := by
  rw [takeByte_waitM0_mismatch hx hb, append_byte_eq_ofNat]
  simp

theorem takeByte_waitM1_raises {s : State} {b : Byte} (hx : s.xstate = .waitM1) (hb : b ≠ 0x09) :
    takeByte b s = faultXcv .marker (BitVec.ofNat 16 (0x0100 + b.toNat)) s := by
  rw [takeByte_waitM1_mismatch hx hb, append_byte_eq_ofNat]
  rfl

/-- Settles O34. -/
theorem xcvWaitsForTheMarker : Obligations.XcvWaitsForTheMarker := by
  have hr0 {s : State} (hx : s.xstate = .waitM0) : s.xstate.receiving = true := by rw [hx]; rfl
  have hr1 {s : State} (hx : s.xstate = .waitM1) : s.xstate.receiving = true := by rw [hx]; rfl
  refine ⟨fun s q henv hx hq => ?_, fun s q b hlive henv hx hq hb => ?_, fun s q henv hx hq => ?_,
    fun s q b hlive henv hx hq hb => ?_⟩
  · exact (step_eq_machineTurn henv).trans (machineTurn_takes_on (hr0 hx) hq (takeByte_waitM0_accepts hx) rfl)
  · exact step_takes_raised hlive henv (hr0 hx) hq (takeByte_waitM0_raises hx hb)
  · exact (step_eq_machineTurn henv).trans (machineTurn_takes_on (hr1 hx) hq (takeByte_waitM1_accepts hx) rfl)
  · exact step_takes_raised hlive henv (hr1 hx) hq (takeByte_waitM1_raises hx hb)

/-- The byte at the greatest `TLEN` is stored as any other, and the new `TLEN` is free (log 7). -/
theorem takeByte_body_stores_last {s : State} {b : Byte} (hx : s.xstate = .body) (hb : b ≠ terminator)
    (hroom : s.caps.tbuf ≠ some s.tlen.toNat) (hlast : s.tlen.toNat + 1 = 2 ^ 32) :
    takeByte b s =
      { s with
        tbuf := s.tbuf.write s.tlen.toNat [b], tlen := Config.freeValue 32 s.draws, draws := s.draws + 1
        tmr := timerAfter s.rxfifo s } := by
  simp only [takeByte, hx, if_neg hb, if_neg hroom, appendText, if_neg (Nat.not_lt.2 hlast.ge)]
  exact beginWait_receiving rfl

/-- A byte stored at an offset is read back, and no other byte changes. -/
theorem Memory.write_one (m : Memory) (n : Nat) (b : Byte) :
    (m.write n [b]).byte n = b ∧ ∀ a, a ≠ n → (m.write n [b]).byte a = m.byte a :=
  ⟨m.byte_write_inside n 0 [b] Nat.one_pos, fun a ha => m.byte_write_outside n a [b] (Nat.lt_or_gt_of_ne ha)⟩

/-- Settles O35: what the receiver makes of the byte, by its value and the room left. -/
theorem xcvGathersTheLine : Obligations.XcvGathersTheLine := by
  have hr {s : State} (hx : s.xstate = .body) : s.xstate.receiving = true := by rw [hx]; rfl
  have hbusy {s : State} (hx : s.xstate = .body) : s.xstate.busy = true := receiving_busy (hr hx)
  refine ⟨fun s q henv hx hq => ?_, fun s q b henv hx hq hb hroom hlt => ?_,
    fun s q b henv hx hq hb hroom hlast => ?_, fun s q b hlive henv hx hq hb hfull => ?_⟩
  · exact (step_eq_machineTurn henv).trans (machineTurn_takes_on (hr hx) hq (takeByte_body_terminator hx) rfl)
  · obtain ⟨hread, hframe⟩ := s.tbuf.write_one s.tlen.toNat b
    exact ⟨_, (step_eq_machineTurn henv).trans
      (machineTurn_takes_on (hr hx) hq (takeByte_body_stores hx hb hroom hlt) (hbusy hx)), hread, hframe, rfl⟩
  · obtain ⟨hread, hframe⟩ := s.tbuf.write_one s.tlen.toNat b
    exact ⟨_, (step_eq_machineTurn henv).trans
      (machineTurn_takes_on (hr hx) hq (takeByte_body_stores_last hx hb hroom hlast) (hbusy hx)), hread, hframe, rfl⟩
  · exact step_takes_raised hlive henv (hr hx) hq (takeByte_body_full hx hb hfull)

/-! ## DECODE (R210) -/

theorem machineTurn_decode {s : State} (hx : s.xstate = .decode) :
    machineTurn s = .next (operationDone s (decodeFrameWith faultXcv { s with xstate := .idle })) := by
  rw [machineTurn_busy (by rw [hx]; rfl), xcvStep_decode hx, decodeStep]

theorem operationDone_deliverFrame (s : State) (f : ParsedFrame) :
    operationDone s (deliverFrame f { s with xstate := .idle }) =
      deliverFrame f { s with xstate := .idle, pc := s.pc + 1 } :=
  operationDone_same rfl rfl

/-- Settles O36: `DECODE` has the three outcomes of `FRM.DEC`, and then the host's operation ends. -/
theorem xcvChecksTheFrame : Obligations.XcvChecksTheFrame := by
  intro s hlive henv hx
  refine ⟨_, (step_eq_machineTurn henv).trans (machineTurn_decode hx), ?_⟩
  split
  next code info hbad =>
    rw [decodeFrameWith_bad (s := { s with xstate := .idle }) hbad]
    exact operationDone_raised hlive code info { s with xstate := .idle }
  next f hgood =>
    split
    next hfit =>
      rw [decodeFrameWith_fits (s := { s with xstate := .idle }) hgood hfit, operationDone_deliverFrame]
      exact deliverFrame_delivered f _
    next hbig =>
      rw [decodeFrameWith_too_large (s := { s with xstate := .idle }) hgood hbig]
      exact operationDone_raised hlive .cfg 3 { s with xstate := .idle }

/-! ## Timeout and read failure (R217, R218) -/

/-- The state with another script. -/
def State.withEnv (env : List EnvEvent) (s : State) : State := { s with env := env }

section
variable (env : List EnvEvent) (b : Byte) (s : State)

theorem beginWait_withEnv : beginWait (s.withEnv env) = (beginWait s).withEnv env := by
  simp only [beginWait, apply_ite (State.withEnv env)]
  rfl

theorem appendText_withEnv : appendText b (s.withEnv env) = (appendText b s).withEnv env := by
  simp only [appendText, apply_ite (State.withEnv env)]
  rfl

/-- The receiver does not look at the script. -/
theorem takeByte_withEnv : takeByte b (s.withEnv env) = (takeByte b s).withEnv env := by
  have hx : (s.withEnv env).xstate = s.xstate := rfl
  cases h : s.xstate with
  | waitM0 =>
    simp only [takeByte, hx, h, apply_ite (State.withEnv env), ← beginWait_withEnv]
    rfl
  | waitM1 =>
    simp only [takeByte, hx, h, apply_ite (State.withEnv env), ← beginWait_withEnv]
    rfl
  | body =>
    simp only [takeByte, hx, h, apply_ite (State.withEnv env), ← beginWait_withEnv, ← appendText_withEnv]
    rfl
  | _ => simp only [takeByte, hx, h]

theorem operationDone_withEnv (t : State) :
    operationDone (s.withEnv env) (t.withEnv env) = (operationDone s t).withEnv env := by
  simp only [operationDone, apply_ite (State.withEnv env)]
  rfl

/-- While a byte is available, the receiver's step is the same under every script. -/
theorem machineTurn_withEnv {s : State} (hr : s.xstate.receiving = true) (hq : s.rxfifo ≠ []) :
    ∃ t, machineTurn s = .next t ∧ ∀ env, machineTurn (s.withEnv env) = .next (t.withEnv env) := by
  obtain ⟨b, q, hq⟩ := List.exists_cons_of_ne_nil hq
  refine ⟨_, machineTurn_takes hr hq, fun env => ?_⟩
  rw [← operationDone_withEnv, ← takeByte_withEnv]
  exact machineTurn_takes (s := s.withEnv env) hr hq

end

/-- Settles O37: an event of an empty queue is possible at no other time, and the receiver's step does not depend on the
script. -/
theorem timeoutAndReadFailureOnlyOnAnEmptyQueue : Obligations.TimeoutAndReadFailureOnlyOnAnEmptyQueue := by
  have hwaiting {s : State} (hr : s.xstate.receiving = true) (hq : s.rxfifo = []) : s.waiting = true := by
    simp [State.waiting, hr, hq]
  refine ⟨fun s rest hlive hr hq henv => ?_, fun s rest hlive hr hq henv => ?_,
    fun s t e rest hr hq he hstep => ?_, fun s hr hq henv => ?_⟩
  · exact ⟨_, step_eq_envTurn henv (hwaiting hr hq),
      exchangeDone_raised (s := { s with env := rest }) (receiving_busy hr) hlive .timeout 0 _⟩
  · exact ⟨_, step_eq_envTurn henv (hwaiting hr hq),
      exchangeDone_raised (s := { s with env := rest }) (receiving_busy hr) hlive .ioRead 0 _⟩
  · have hidle : e.enabled (s.withEnv (e :: rest)) = false := by
      rcases he with rfl | rfl <;> simp [EnvEvent.enabled, State.withEnv, State.waiting, hq]
    obtain ⟨u, -, hturn⟩ := machineTurn_withEnv hr hq
    obtain rfl : u.withEnv [] = t :=
      Host.Outcome.next.inj (((step_eq_machineTurn rfl).trans (hturn [])).symm.trans hstep)
    exact (step_not_enabled rfl hidle).trans (hturn (e :: rest))
  · exact (step_eq_machineTurn henv).trans (machineTurn_waits hr hq)

/-! ## Arrival outside a wait (R216, R276) -/

theorem deviceTurn_queues {s : State} (hw : s.waiting = false) (bytes : List Byte) :
    deviceTurn bytes s = .next { s with rxfifo := s.rxfifo ++ bytes } := by
  rw [deviceTurn_eq, arriveBytes_queues hw]
  cases hb : s.xstate.busy with
  | true =>
    rw [exchangeDone_busy hb]
    exact congrArg _ (operationDone_busy hb)
  | false => rw [exchangeDone_idle hb]

/-- Settles O39. -/
theorem arrivalOutsideAWaitOnlyQueues : Obligations.ArrivalOutsideAWaitOnlyQueues := by
  refine ⟨fun s bytes rest hw henv => ?_, fun s hw => ⟨?_, ?_, ?_⟩⟩
  · exact (step_eq_envTurn henv rfl).trans (deviceTurn_queues (s := { s with env := rest }) hw bytes)
  all_goals exact congrArg Host.Outcome.next (arriveBytes_queues hw _)

/-! ## A line as it arrives (R208, R209, R223; log 10) -/

/-- Content that arrives at a receiver in `BODY` is put behind what `TBUF` holds. -/
theorem arriveBytes_body_gathers {content : List Byte} {s : State} (hx : s.xstate = .body) (hq : s.rxfifo = [])
    (hcap : s.caps.tbuf = none) (htmr : s.tmr = s.timeout) (hcontent : terminator ∉ content)
    (hlt : s.tlen.toNat + content.length < 2 ^ 32) :
    ∃ m : Memory, m.read 0 (s.tlen.toNat + content.length) = s.tbuf.read 0 s.tlen.toNat ++ content ∧
      arriveBytes content s = { s with tbuf := m, tlen := s.tlen + BitVec.ofNat 32 content.length } := by
  induction content generalizing s with
  | nil => exact ⟨s.tbuf, by simp, by simp⟩
  | cons b bs ih =>
    obtain ⟨hb, hbs⟩ : b ≠ terminator ∧ terminator ∉ bs := by simpa [eq_comm] using hcontent
    rw [List.length_cons] at hlt ⊢
    have hnext : (s.tlen + 1).toNat = s.tlen.toNat + 1 := by bv_omega
    have htlen : s.tlen + 1 + BitVec.ofNat 32 bs.length = s.tlen + BitVec.ofNat 32 (bs.length + 1) := by bv_omega
    have hstore := arriveBytes_body_stores hq hx hb (by simp [hcap]) (by omega) bs
    obtain ⟨m, hread, hrest⟩ :=
      ih (s := { s with tbuf := s.tbuf.write s.tlen.toNat [b], tlen := s.tlen + 1, tmr := s.timeout }) hx hq hcap rfl
        hbs (by simp only [hnext]; omega)
    refine ⟨m, ?_, ?_⟩
    · simp only [hnext, Memory.read_write_append] at hread
      rw [← Nat.add_assoc, Nat.add_right_comm, hread, List.append_assoc, List.singleton_append]
    · rw [hstore, hrest, htmr]
      simp only [htlen]

section
variable {s : State} (hx : s.xstate = .waitM0) (hq : s.rxfifo = []) (htlen : s.tlen = 0) (hcap : s.caps.tbuf = none)
  {content : List Byte} (hcontent : terminator ∉ content) (hlt : content.length < 2 ^ 32)
include hx hq htlen hcap hcontent hlt

/-- A start marker and content: the machine waits for more of the line. -/
theorem arriveBytes_marked_content :
    ∃ m : Memory, m.read 0 content.length = content ∧
      arriveBytes (startMarker ++ content) s =
        { s with xstate := .body, tmr := s.timeout, tbuf := m, tlen := BitVec.ofNat 32 content.length } := by
  obtain ⟨m, hread, harrive⟩ := arriveBytes_body_gathers (s := { s with xstate := .body, tmr := s.timeout }) rfl hq
    hcap rfl hcontent (by simpa [htlen] using hlt)
  refine ⟨m, by simpa [htlen, Memory.read] using hread, ?_⟩
  rw [arriveBytes_append, arriveBytes_startMarker hq hx, harrive]
  simp [htlen]

/-- A whole line: the content is in `TBUF`, and what follows the terminator stays in the queue. -/
theorem arriveBytes_line (rest : List Byte) :
    ∃ m : Memory, m.read 0 content.length = content ∧
      arriveBytes (startMarker ++ content ++ [terminator] ++ rest) s =
        { s with
          xstate := .decode, portOpen := false, rxfifo := rest, tmr := s.timeout, tbuf := m
          tlen := BitVec.ofNat 32 content.length } := by
  obtain ⟨m, hread, harrive⟩ := arriveBytes_marked_content hx hq htlen hcap hcontent hlt
  refine ⟨m, hread, ?_⟩
  rw [arriveBytes_append, arriveBytes_append, harrive, arriveBytes_body_terminator (by exact hq) rfl,
    arriveBytes_queues rfl]
  simp [hq]

end

/-- Settles O41: the marker byte by byte, and after it the line. -/
theorem receiveHalfAsAFunction : Obligations.ReceiveHalfAsAFunction := by
  intro s hlive hx hq htlen hcap
  have hr : s.xstate.receiving = true := by rw [hx]; rfl
  refine ⟨rfl, arriveBytes_waitM0_accepts hq hx [], fun b0 rest hb => ?_, fun b1 rest hb => ?_,
    fun content rest hcontent hlt => ?_, fun content hcontent hlt => ?_⟩
  · exact arriveBytes_first_faults hr hq (takeByte_waitM0_raises hx hb) rest
  · rw [arriveBytes_waitM0_accepts hq hx]
    exact arriveBytes_first_faults (s := { s with xstate := .waitM1, tmr := s.timeout }) rfl hq
      (takeByte_waitM1_raises rfl hb) rest
  · obtain ⟨m, hread, harrive⟩ := arriveBytes_line hx hq htlen hcap hcontent hlt rest
    exact ⟨_, harrive, rfl, rfl, toNat_ofNat_of_lt hlt, hread, rfl, hlive⟩
  · obtain ⟨m, hread, harrive⟩ := arriveBytes_marked_content hx hq htlen hcap hcontent hlt
    refine ⟨_, harrive, rfl, ?_, toNat_ofNat_of_lt hlt, hread, hlive⟩
    simp [State.waiting, XState.receiving, hq]

/-! ## A whole exchange (R200, R211) -/

/-- While the script waits for another state the machine takes its turn (log 9). -/
theorem step_awaiting {s : State} {x : XState} {rest : List EnvEvent} (henv : s.env = .await x :: rest)
    (hx : s.xstate ≠ x) : step s = machineTurn s :=
  step_not_enabled henv (decide_eq_false hx)

theorem step_awaited {s : State} {x : XState} {rest : List EnvEvent} (henv : s.env = .await x :: rest)
    (hx : s.xstate = x) : step s = .next { s with env := rest } :=
  step_eq_envTurn henv (decide_eq_true hx)

theorem runsTo_step {s t : State} (h : step s = .next t) : runsTo 1 s t := runsTo_succ_iff.2 ⟨t, h, rfl⟩

/-- `n` more bytes of the frame are sent, in order. -/
theorem runsTo_sends {n : Nat} {s : State} {rest : List EnvEvent} (hx : s.xstate = .write)
    (henv : s.env = .await .waitM0 :: rest) (hn : s.widx.toNat + n ≤ s.wlen.toNat) :
    runsTo n s
      { s with
        txout := s.txout ++ s.wbuf.read s.widx.toNat n, widx := s.widx + BitVec.ofNat 32 n } := by
  induction n generalizing s with
  | zero => simp [runsTo, Host.Core.run, Memory.read]
  | succ n ih =>
    have hwlen := s.wlen.isLt
    have hnext : (s.widx + 1).toNat = s.widx.toNat + 1 := by bv_omega
    have hwidx : s.widx + 1 + BitVec.ofNat 32 n = s.widx + BitVec.ofNat 32 (n + 1) := by bv_omega
    have hstep := (step_awaiting henv (by rw [hx]; decide)).trans (machineTurn_sends hx (by omega))
    have hrest := ih
      (s := { s with txout := s.txout ++ [s.wbuf.byte s.widx.toNat], widx := s.widx + 1 }) hx henv
      (by simp only [hnext]; omega)
    refine runsTo_succ_iff.2 ⟨_, hstep, ?_⟩
    simpa only [hnext, hwidx, Memory.read, List.append_assoc, List.singleton_append] using hrest

/-- The state `XCV` reaches from `s` when the whole frame is sent and the wait for the marker begins (R205). -/
abbrev State.frameSent (s : State) : State :=
  { s with
    cmd := 0x50, portOpen := true, rxfifo := [], widx := s.wlen, txout := s.txout ++ wireOperand s, tlen := 0
    xstate := .waitM0, tmr := s.timeout }

section
variable {s : State} {rest : List EnvEvent} (hlive : s.errf = false) (hidle : s.xstate.busy = false)
  (hrun : s.stopped = false) (hop : s.program[s.pc]? = some (.wr 0 0x50)) (henv : s.env = .await .waitM0 :: rest)
include hlive hidle hrun hop henv

/-- `XCV` up to the first byte sent: the port is open and stale input is gone. -/
theorem runsTo_flushed :
    runsTo 3 s { s with cmd := 0x50, portOpen := true, rxfifo := [], widx := 0, xstate := .write } := by
  have hawait : s.xstate ≠ .waitM0 := by
    intro hx
    rw [hx] at hidle
    cases hidle
  have hbegin := (step_awaiting henv hawait).trans (machineTurn_xcv hlive hidle hrun hop)
  have hopen := (step_awaiting (s := { s with cmd := 0x50, xstate := .opening }) henv nofun).trans
    (machineTurn_opening rfl)
  have hflush := (step_awaiting (s := { s with cmd := 0x50, portOpen := true, xstate := .flush }) henv nofun).trans
    (machineTurn_flush rfl)
  exact runsTo_trans (runsTo_trans (runsTo_step hbegin) (runsTo_step hopen)) (runsTo_step hflush)

theorem runsTo_frameSent : ∃ n, runsTo n s s.frameSent := by
  have hsend := runsTo_sends (n := s.wlen.toNat)
    (s := { s with cmd := 0x50, portOpen := true, rxfifo := [], widx := 0, xstate := .write }) rfl henv (by simp)
  have hwidx : 0 + BitVec.ofNat 32 s.wlen.toNat = s.wlen := by simp
  rw [hwidx] at hsend
  have hend := (step_awaiting
    (s := { s with
      cmd := 0x50, portOpen := true, rxfifo := [], widx := s.wlen, txout := s.txout ++ wireOperand s
      xstate := .write }) henv nofun).trans (machineTurn_frame_sent rfl le_rfl)
  exact ⟨_, runsTo_trans (runsTo_trans (runsTo_flushed hlive hidle hrun hop henv) hsend) (runsTo_step hend)⟩

end

/-- The device sends a whole line to a machine that waits for it. -/
theorem step_line_arrives {s : State} {content rest : List Byte} {env : List EnvEvent} (hx : s.xstate = .waitM0)
    (hq : s.rxfifo = []) (htlen : s.tlen = 0) (hcap : s.caps.tbuf = none) (hcontent : terminator ∉ content)
    (hlt : content.length < 2 ^ 32)
    (henv : s.env = .push (startMarker ++ content ++ [terminator] ++ rest) :: env) :
    ∃ m : Memory, m.read 0 content.length = content ∧
      step s = .next
        { s with
          env := env, xstate := .decode, portOpen := false, rxfifo := rest, tmr := s.timeout, tbuf := m
          tlen := BitVec.ofNat 32 content.length } := by
  obtain ⟨m, hread, harrive⟩ := arriveBytes_line (s := { s with env := env }) hx hq htlen hcap hcontent hlt rest
  refine ⟨m, hread, (step_eq_envTurn henv rfl).trans ?_⟩
  rw [envTurn, deviceTurn_eq, harrive, exchangeDone_busy (by rw [hx]; rfl), operationDone_busy rfl]

/-- A good frame in `TBUF` ends the exchange, and with it the host's operation. -/
theorem machineTurn_delivers {s : State} {f : ParsedFrame} (hx : s.xstate = .decode)
    (hgood : frameParse (textOperand s) = .ok f) (hfit : fits f.raw.length s.caps.rbuf = true) :
    machineTurn s = .next (deliverFrame f { s with xstate := .idle, pc := s.pc + 1 }) := by
  rw [machineTurn_decode hx, decodeFrameWith_fits (s := { s with xstate := .idle }) hgood hfit,
    operationDone_deliverFrame]

/-- A frame that passes has the total length its first two bytes give, so `RLEN` and `RPLEN` hold their lengths. -/
theorem frameParse_ok_length {t : List Byte} {f : ParsedFrame} (h : frameParse t = .ok f) :
    f.payload.length + 12 = f.raw.length ∧ f.raw.length < 2 ^ 16 + 2 := by
  obtain ⟨raw, rfl, hraw⟩ := exists_goodFrame_of_frameParse h
  rw [frameParse_b64enc, hraw.rawParse_eq] at h
  cases h
  have hlong := hraw.long
  have htotal := hraw.total_eq
  have hfield := (fieldAt raw 0).isLt
  simp only [List.length_take, List.length_drop]
  omega

/-- Settles O42: the frame goes out, the line comes in, and its frame is delivered. -/
theorem xcvDeliversOneGoodLine : Obligations.XcvDeliversOneGoodLine := by
  intro s content rest f hlive hidle hrun hop henv hcontent hlt hcaps hgood
  obtain ⟨n, hsent⟩ := runsTo_frameSent hlive hidle hrun hop henv
  have hawaited := step_awaited (s := s.frameSent) henv rfl
  obtain ⟨m, hread, hline⟩ := step_line_arrives (env := [])
    (s := { s.frameSent with env := [.push ([0x06, 0x09] ++ content ++ [0x0A] ++ rest)] })
    rfl rfl rfl (by rw [hcaps]; rfl) hcontent hlt rfl
  have htext : m.read 0 (BitVec.ofNat 32 content.length).toNat = content := by rwa [toNat_ofNat_of_lt hlt]
  have hcheck := (step_eq_machineTurn rfl).trans (machineTurn_delivers (f := f)
    (s := { s.frameSent with
      env := [], xstate := .decode, portOpen := false, rxfifo := rest, tbuf := m
      tlen := BitVec.ofNat 32 content.length })
    rfl (by rwa [textOperand, htext]) (by rw [hcaps]; rfl))
  obtain ⟨hpayload, hraw⟩ := frameParse_ok_length hgood
  refine ⟨_, _, runsTo_trans (runsTo_trans (runsTo_trans hsent (runsTo_step hawaited)) (runsTo_step hline))
    (runsTo_step hcheck), rfl, rfl, hlive, rfl, rfl, toNat_ofNat_of_lt hlt, hread, rfl,
    Memory.read_write _ _ _, toNat_ofNat_of_lt (by omega), rfl, rfl, rfl, rfl, rfl, rfl, rfl, ?rplen, ?request⟩
  case rplen =>
    rw [deliverFrame_rplen, ← hpayload, Nat.add_sub_cancel]
    exact toNat_ofNat_of_lt (by omega)
  case request => exact ⟨rfl, rfl, rfl, rfl, rfl, rfl, rfl, rfl, rfl, rfl, rfl, rfl, rfl, rfl, rfl⟩

/-! ## The first line of a response in several lines (R214) -/

/-- Whole groups of four characters are the encoding of whole groups of three bytes. -/
theorem b64enc_take (s : List Byte) (k : Nat) : (b64enc s).take (4 * k) = b64enc (s.take (3 * k)) := by
  induction s using b64enc.induct generalizing k with
  | case1 => simp
  | case2 b0 =>
    cases k with
    | zero => rfl
    | succ k => simp [Nat.mul_succ, b64enc_one]
  | case3 b0 b1 =>
    cases k with
    | zero => rfl
    | succ k => simp [Nat.mul_succ, b64enc_two]
  | case4 b0 b1 b2 rest ih =>
    cases k with
    | zero => rfl
    | succ k => simp only [Nat.mul_succ, b64enc_cons, List.take_succ_cons, ih]

/-- A text that does not end with a whole group is malformed (R145). -/
theorem b64dec_eq_none_of_length {t : List Byte} (h : t.length % 4 ≠ 0) : b64dec t = none := by
  cases hdec : b64dec t with
  | none => rfl
  | some s =>
    rw [b64dec_eq_some_iff.1 hdec, b64enc_length] at h
    omega

/-- The front of a raw frame is too short or keeps the whole frame's total length. -/
theorem rawParse_take_rawFrame (h : Header) {d : List Byte} (c : Half) {n : Nat} (hd : d.length ≤ 65525)
    (hn : n < (rawFrame h d c).length) :
    ∃ code info, rawParse ((rawFrame h d c).take n) = .error (code, info) ∧ (code = .short ∨ code = .len) := by
  have hlen : ((rawFrame h d c).take n).length = n := List.length_take_of_le hn.le
  by_cases hshort : n < 12
  · exact ⟨_, _, rawParse_short (by rwa [hlen]), .inl rfl⟩
  · have hfield : fieldAt ((rawFrame h d c).take n) 0 = BitVec.ofNat 16 (d.length + 10) := by
      rw [← fieldAt_append_left (by omega) ((rawFrame h d c).drop n), List.take_append_drop, fieldAt_rawFrame_total]
    rw [rawFrame_length] at hn
    exact ⟨_, _, rawParse_wrong_total (by omega) (by rw [hfield, hlen, toNat_ofNat_of_lt (by omega)]; omega), .inr rfl⟩

/-- Settles O30: a front of the text that decodes is the encoding of a front of the raw frame. -/
theorem multiLineResponseNeverPasses : Obligations.MultiLineResponseNeverPasses := by
  intro h d c w hd _ hw
  have hlen : ((b64enc (rawFrame h d c)).take w).length = w := List.length_take_of_le hw.le
  by_cases hgroups : w % 4 = 0
  · obtain ⟨k, rfl⟩ := Nat.dvd_of_mod_eq_zero hgroups
    rw [b64enc_length] at hw
    obtain ⟨code, info, herror, hcode⟩ := rawParse_take_rawFrame h c (n := 3 * k) hd (by omega)
    rw [b64enc_take, frameParse_b64enc]
    exact ⟨code, info, herror, .inr hcode⟩
  · exact ⟨.b64, 0, frameParse_malformed (b64dec_eq_none_of_length (by rwa [hlen])), .inl rfl⟩

end Sys2Proof.Machine
end

section
/-! PROOFS. The host protocol family (46_host_protocol.md): what each of the host's bus operations makes of the state and
what it leaves alone (R240 to R246), and the decisions of an upload and of a query (R250 to R262). -/

namespace Sys2Proof.Machine

/-! ## The step of an accepted operation (R23, R66) -/

/-- An operation that neither faults nor begins an exchange completes, and the host's index advances. -/
theorem State.performs.step_next {s t : State} {op : BusOp} (h : s.performs op) (ht : busOp op s = .next t)
    (hx : t.xstate = s.xstate) (he : t.errf = s.errf) : step s = .next { t with pc := t.pc + 1 } := by
  have hidle : t.xstate.busy = false := by rw [hx, h.1]
  rw [h.step_eq, ht]
  exact congrArg _ (operationDone_same hidle he)

theorem Reg.number_eq_cmd_iff {r : Reg} : r.number = Reg.CMD.number ↔ r = .CMD := by
  cases r <;> decide

/-! ## Writing a register (R241) -/

section
variable (r : Reg) (v : Nat) (s : State)

@[simp] theorem writeReg_status : (writeReg r v s).status = s.status := by cases r <;> rfl
@[simp] theorem writeReg_seq : (writeReg r v s).seq = s.seq := by cases r <;> rfl
@[simp] theorem writeReg_xstate : (writeReg r v s).xstate = s.xstate := by cases r <;> rfl
@[simp] theorem writeReg_portOpen : (writeReg r v s).portOpen = s.portOpen := by cases r <;> rfl
@[simp] theorem writeReg_widx : (writeReg r v s).widx = s.widx := by cases r <;> rfl
@[simp] theorem writeReg_tmr : (writeReg r v s).tmr = s.tmr := by cases r <;> rfl
@[simp] theorem writeReg_rxfifo : (writeReg r v s).rxfifo = s.rxfifo := by cases r <;> rfl
@[simp] theorem writeReg_reads : (writeReg r v s).reads = s.reads := by cases r <;> rfl
@[simp] theorem writeReg_pc : (writeReg r v s).pc = s.pc := by cases r <;> rfl
@[simp] theorem writeReg_buffer (b : Buf) : (writeReg r v s).buffer b = s.buffer b := by cases r <;> rfl
@[simp] theorem writeReg_errf : (writeReg r v s).errf = s.errf := by simp only [State.errf, writeReg_status]

end

/-- What is read after a write of a value that fits the width of a register marked W. -/
theorem readReg_writeReg_same {r : Reg} {v : Nat} (hw : r.writable = true) (hv : v < 2 ^ r.width) (s : State) :
    readReg r (writeReg r v s) = v := by
  cases r <;> first | exact Nat.mod_eq_of_lt hv | cases hw

/-- A write leaves every other register as it was. -/
theorem readReg_writeReg_of_ne {r r' : Reg} (h : r' ≠ r) (v : Nat) (s : State) :
    readReg r' (writeReg r v s) = readReg r' s := by
  cases r <;> cases r' <;> first | rfl | exact absurd rfl h

/-- No register is the host's index. -/
theorem readReg_pc (r : Reg) (s : State) (n : Nat) : readReg r { s with pc := n } = readReg r s := by
  cases r <;> rfl

theorem busOp_wr {r : Reg} {v : Nat} {s : State} (hw : r.writable = true) (hr : r ≠ .CMD) (hv : v < 2 ^ r.width)
    (hl : lengthFits r v s.caps = true) : busOp (.wr r.number v) s = .next (writeReg r v s) := by
  have haccepted : busRefusal s.caps (.wr r.number v) = none := writeRefusal_eq_none_iff.2 ⟨r, rfl, hw, hv, hl⟩
  have hreg : regOfNumber r.number = some r := regOfNumber_eq_some_iff.2 rfl
  simp only [busOp, haccepted, if_neg (mt Reg.number_eq_cmd_iff.1 hr), busWrite, hreg]

/-- The step of a host that writes a register other than `CMD`. -/
theorem State.performs.step_wr {s : State} {r : Reg} {v : Nat} (h : s.performs (.wr r.number v))
    (hw : r.writable = true) (hr : r ≠ .CMD) (hv : v < 2 ^ r.width) (hl : lengthFits r v s.caps = true) :
    step s = .next { writeReg r v s with pc := s.pc + 1 } := by
  rw [h.step_next (busOp_wr hw hr hv hl) (writeReg_xstate r v s) (writeReg_errf r v s), writeReg_pc]

/-- Settles O48: the general clause by the laws of `writeReg`, the numbered ones by `writeReg` at each register. -/
theorem writeRegisterStoresTheValue : Obligations.WriteRegisterStoresTheValue := by
  refine ⟨fun s r v hw hr hv hl h => ⟨_, h.step_wr hw hr hv hl, ?_⟩, ?_, ?_, ?_⟩
  · exact ⟨(readReg_pc ..).trans (readReg_writeReg_same hw hv s),
      fun _ hne => (readReg_pc ..).trans (readReg_writeReg_of_ne hne v s), writeReg_buffer r v s, writeReg_seq r v s,
      writeReg_xstate r v s, writeReg_txout r v s, writeReg_rxfifo r v s, writeReg_reads r v s,
      rfl, writeReg_portOpen r v s, writeReg_widx r v s, writeReg_tmr r v s⟩
  · exact fun s v => ⟨fun h => by simpa [writeReg] using h.step_wr (r := .DATA) rfl nofun v.isLt rfl,
      fun h => by simpa [writeReg] using h.step_wr (r := .TXH_OP) rfl nofun v.isLt rfl,
      fun h => by simpa [writeReg] using h.step_wr (r := .TXH_SEQ) rfl nofun v.isLt rfl,
      fun h => by simpa [writeReg] using h.step_wr (r := .TXH_CMD) rfl nofun v.isLt rfl⟩
  · exact fun s v => ⟨fun h => by simpa [writeReg] using h.step_wr (r := .LINELEN) rfl nofun v.isLt rfl,
      fun h => by simpa [writeReg] using h.step_wr (r := .TXH_GROUP) rfl nofun v.isLt rfl,
      fun h hl => by simpa [writeReg] using h.step_wr (r := .PLEN) rfl nofun v.isLt hl⟩
  · exact fun s v => ⟨fun h => by simpa [writeReg] using h.step_wr (r := .MTU) rfl nofun v.isLt rfl,
      fun h => by simpa [writeReg] using h.step_wr (r := .TIMEOUT) rfl nofun v.isLt rfl,
      fun h hl => by simpa [writeReg] using h.step_wr (r := .TLEN) rfl nofun v.isLt hl⟩

/-! ## Reading a register (R242) -/

/-- The registers marked R or RW, in the order of their numbers (R21). -/
def readableRegs : List Reg :=
  [.STATUS, .ERR, .ERRINFO, .RES, .CRC, .DATA, .LINELEN, .MTU, .TIMEOUT, .PLEN, .TLEN, .WLEN, .RLEN, .RPLEN, .TXH_OP,
    .TXH_FLAGS, .TXH_LEN, .TXH_GROUP, .TXH_SEQ, .TXH_CMD, .RXH_OP, .RXH_FLAGS, .RXH_LEN, .RXH_GROUP, .RXH_SEQ, .RXH_CMD]

theorem mem_readableRegs_iff {r : Reg} : r ∈ readableRegs ↔ r.readable = true := by
  cases r <;> decide

/-- Only `CMD` cannot be read (R21). -/
theorem Reg.readable_iff {r : Reg} : r.readable = true ↔ r ≠ .CMD := by
  cases r <;> decide

theorem busOp_rd {r : Reg} (hr : r ≠ .CMD) (s : State) :
    busOp (.rd r.number) s = .next (returnToHost (.reg (readReg r s)) s) := by
  have hreg : regOfNumber r.number = some r := regOfNumber_eq_some_iff.2 rfl
  have haccepted : busRefusal s.caps (.rd r.number) = none := by
    simp only [busRefusal, readRefusal, hreg, Reg.readable_iff.2 hr, if_true]
  simp only [busOp, haccepted, busRead, hreg]

/-- The step of a host that reads a register. -/
theorem State.performs.step_rd {s : State} {r : Reg} (h : s.performs (.rd r.number)) (hr : r ≠ .CMD) :
    step s = .next { s with reads := s.reads ++ [.reg (readReg r s)], pc := s.pc + 1 } :=
  h.step_next (busOp_rd hr s) rfl rfl

/-- Settles O49: the table of the statement is `readReg` over the readable registers. -/
theorem readRegisterChangesNothing : Obligations.ReadRegisterChangesNothing := by
  refine ⟨fun s r hr h => h.step_rd hr, fun s n v h hmem => ?_⟩
  rw [← readReg_status] at hmem
  have htable : (n, v) ∈ readableRegs.map fun r => (r.number, readReg r s) := hmem
  obtain ⟨r, hr, hnv⟩ := List.mem_map.1 htable
  obtain ⟨rfl, rfl⟩ := Prod.mk.inj hnv
  exact h.step_rd (Reg.readable_iff.1 (mem_readableRegs_iff.1 hr))

/-! ## Writing bytes of a buffer (R243) -/

section
variable {s : State} {b : Buf} {m : Memory}

theorem putBuffer_buffer_same (hb : b.writable = true) : (s.putBuffer b m).buffer b = m := by
  cases b <;> first | rfl | cases hb

theorem putBuffer_buffer_of_ne {b' : Buf} (h : b' ≠ b) : (s.putBuffer b m).buffer b' = s.buffer b' := by
  cases b <;> cases b' <;> first | rfl | exact absurd rfl h

/-- Storing a buffer changes `PBUF` or `TBUF` and nothing else. -/
theorem putBuffer_eq : s.putBuffer b m = { s with pbuf := (s.putBuffer b m).pbuf, tbuf := (s.putBuffer b m).tbuf } := by
  cases b <;> rfl

/-- No register is a buffer. -/
theorem readReg_putBuffer (r : Reg) : readReg r (s.putBuffer b m) = readReg r s := by
  rw [putBuffer_eq]
  cases r <;> rfl

end

theorem busOp_wrb {b : Buf} {off : Nat} {bytes : List Byte} {s : State} (hb : b.writable = true)
    (hfit : fits (off + bytes.length) (capacityOf s.caps b) = true) :
    busOp (.wrb b off bytes) s = .next (s.putBuffer b ((s.buffer b).write off bytes)) := by
  simp [busOp, busRefusal, hb, hfit, busWriteBytes]

/-- The step of a host that writes bytes. -/
theorem State.performs.step_wrb {s : State} {b : Buf} {off : Nat} {bytes : List Byte} (h : s.performs (.wrb b off bytes))
    (hb : b.writable = true) (hfit : fits (off + bytes.length) (capacityOf s.caps b) = true) :
    step s = .next { s.putBuffer b ((s.buffer b).write off bytes) with pc := s.pc + 1 } := by
  have hput := putBuffer_eq (s := s) (b := b) (m := (s.buffer b).write off bytes)
  rw [h.step_next (busOp_wrb hb hfit) (hput ▸ rfl) (hput ▸ rfl)]
  exact hput ▸ rfl

/-- Settles O50: `Memory.write` stores the bytes, `putBuffer` changes one buffer. -/
theorem writeBufferStoresTheBytes : Obligations.WriteBufferStoresTheBytes := by
  refine ⟨fun s b off bytes hb hfit h => ?_, fun s => ⟨rfl, rfl, rfl, rfl⟩⟩
  have hw : b.writable = true := by rcases hb with rfl | rfl <;> rfl
  refine ⟨_, h.step_wrb hw hfit, ?_, fun a ha => ?_, fun b' hne => putBuffer_buffer_of_ne hne,
    fun r => (readReg_pc ..).trans (readReg_putBuffer r),
    congrArg (fun u : State => { u with pc := s.pc + 1 }) putBuffer_eq⟩
  · exact (congrArg (Memory.read · off bytes.length) (putBuffer_buffer_same hw)).trans (Memory.read_write ..)
  · exact (congrArg (Memory.byte · a) (putBuffer_buffer_same hw)).trans (Memory.byte_write_outside _ off a bytes ha)

/-! ## Reading bytes of a buffer (R244) -/

section
variable (s : State) (b : Buf)

theorem hostBytes_getElem? (off n i : Nat) :
    (hostBytes s b off n)[i]? = if i < n then some (hostByte s b (off + i)) else none := by
  induction n generalizing off i with
  | zero => simp [hostBytes]
  | succ n ih =>
    cases i with
    | zero => simp [hostBytes]
    | succ i => simp [hostBytes, ih, Nat.add_assoc, Nat.add_comm 1 i]

@[simp] theorem hostBytes_length (off n : Nat) : (hostBytes s b off n).length = n := by
  induction n generalizing off with
  | zero => rfl
  | succ n ih => simp [hostBytes, ih]

/-- Below the length register the host finds the buffer's byte. -/
theorem hostByte_below {a : Nat} (h : a < s.lengthOf b) : hostByte s b a = (s.buffer b).byte a := if_pos h

theorem hostBytes_below {off n : Nat} (h : off + n ≤ s.lengthOf b) :
    hostBytes s b off n = (s.buffer b).read off n := by
  apply List.ext_getElem?
  intro i
  rw [hostBytes_getElem?, Memory.read_getElem?]
  by_cases hi : i < n
  · rw [if_pos hi, if_pos hi, hostByte_below s b (by omega)]
  · rw [if_neg hi, if_neg hi]

end

section
variable {s : State} {b : Buf} {off n : Nat}

theorem busReadBytes_below (h : off + n ≤ s.lengthOf b) :
    busReadBytes b off n s = returnToHost (.bytes ((s.buffer b).read off n)) s := by
  simp [busReadBytes, Nat.not_lt.2 h, hostBytes_below s b h]

/-- A read that passes the length register takes a draw (log 4). -/
theorem busReadBytes_beyond (h : s.lengthOf b < off + n) :
    busReadBytes b off n s = { returnToHost (.bytes (hostBytes s b off n)) s with draws := s.draws + 1 } := by
  simp [busReadBytes, h]

theorem busOp_rdb (hfit : fits (off + n) (capacityOf s.caps b) = true) :
    busOp (.rdb b off n) s = .next (busReadBytes b off n s) := by
  simp [busOp, busRefusal, hfit]

end

/-- Settles O51: below the length register `rdb` returns what `MemRead` does, beyond it byte by byte. -/
theorem readBufferReturnsTheBytes : Obligations.ReadBufferReturnsTheBytes := by
  refine ⟨fun s b off n hfit hbelow h => ?_, fun s b off n hfit hbeyond h => ?_⟩
  · have hread := busReadBytes_below hbelow ▸ busOp_rdb hfit
    exact h.step_next hread rfl rfl
  · have hread := busReadBytes_beyond hbeyond ▸ busOp_rdb hfit
    refine ⟨hostBytes s b off n, _, h.step_next hread rfl rfl, hostBytes_length s b off n, fun i hi hlen => ?_, rfl⟩
    rw [hostBytes_getElem?, if_pos hi, hostByte_below s b hlen]

/-! ## After FRM.ENC: shrink or send (R254, R255) -/

section
variable {u : Session} {s : State}

theorem afterEncode_sending (h : s.mtuovf = false) :
    afterEncode u s = .sending { u with announced := u.announced || decide (u.offset = 0) } := by
  have hannounced : (u.announced || u.announces) = (u.announced || decide (u.offset = 0)) := by
    cases ha : u.announced <;> simp [Session.announces, ha]
  simp [afterEncode, h, hannounced]

/-- Everything a shrink can be: the overflow fits the attempted length, and a byte or more is left. -/
theorem afterEncode_eq_shrinking {v : Session} (h : afterEncode u s = .shrinking v) :
    s.mtuovf = true ∧ s.wlen.toNat - s.mtu.toNat ≤ u.attempted ∧
      shrinkBy (s.wlen.toNat - s.mtu.toNat) + 1 ≤ u.attempted ∧
      v = { u with attempted := u.attempted - shrinkBy (s.wlen.toNat - s.mtu.toNat) } := by
  cases hm : s.mtuovf with
  | false => simp [afterEncode_sending hm] at h
  | true =>
    simp only [afterEncode, hm, if_true] at h
    split at h
    · cases h
    next hover =>
      split at h
      · cases h
      next hleft => exact ⟨rfl, Nat.not_lt.1 hover, Nat.not_lt.1 hleft, (HostNext.shrinking.inj h).symm⟩

end

/-- A shrink gives up at least the margin, which is at least 1 (R7, R255). -/
theorem shrinkBy_pos (e : Nat) : 0 < shrinkBy e := Nat.succ_pos _

/-! ## The payload of a chunk (R253, R260) -/

theorem uploadPayload_of_fits {slot : Int} {u : Session} (ho : u.offset < 2 ^ 32) (hi : u.image.length < 2 ^ 32) :
    uploadPayload slot u =
      some { slot := slot, offset := BitVec.ofNat 32 u.offset, data := chunkBytes u,
             first :=
               if u.announces then some (BitVec.ofNat 32 u.image.length, Config.imageDigest u.image) else none } := by
  simp only [uploadPayload, Session.fieldsFit, ho, hi, decide_true, Bool.and_self, if_true]

theorem uploadPayload_of_not_fits {slot : Int} {u : Session} (h : 2 ^ 32 ≤ u.offset ∨ 2 ^ 32 ≤ u.image.length) :
    uploadPayload slot u = none := by
  have hfields : u.fieldsFit = false := by
    simp only [Session.fieldsFit, Bool.and_eq_false_iff, decide_eq_false_iff_not, Nat.not_lt]
    exact h
  simp only [uploadPayload, hfields, Bool.false_eq_true, if_false]

/-- The attempted length counts only up to the end of the image. -/
theorem chunkBytes_eq (u : Session) :
    chunkBytes u = (u.image.drop u.offset).take (min u.attempted (u.image.length - u.offset)) := by
  rw [← List.length_drop, ← List.take_eq_take_min]
  rfl

theorem Session.announces_iff {u : Session} : u.announces = true ↔ u.offset = 0 ∧ u.announced = false := by
  simp [Session.announces]

/-! ## A response is correlated, then decoded (R256, R257, R262) -/

section
variable {op seq : Byte} {r : Reading}

theorem correlate_seqMismatch (h : r.seq ≠ seq.toNat) : correlate op seq r = some .seqMismatch := if_pos h

theorem correlate_rspMismatch (hseq : r.seq = seq.toNat) (h : r.op ≠ op.toNat ∨ r.group ≠ Config.groupImage.toNat) :
    correlate op seq r = some .rspMismatch := by
  rw [correlate, if_neg (not_not.2 hseq), if_pos h]

theorem correlate_matches (hseq : r.seq = seq.toNat) (hop : r.op = op.toNat)
    (hgroup : r.group = Config.groupImage.toNat) : correlate op seq r = none := by
  simp [correlate, hseq, hop, hgroup]

theorem decodeReading_of_correlate {f : HostFailure} (h : correlate op seq r = some f) :
    decodeReading op seq r = .error f := by
  simp only [decodeReading, h]

end

/-! ## The device's offset (R257 to R259, R261) -/

section
variable (u : Session)

theorem afterResponse_deviceError {n : Nat} (h : n ≠ 0) (o : Option Nat) :
    afterResponse u { status := n, offset := o } = .failed (.deviceError n) := if_pos h

theorem afterResponse_noProgress {o : Option Nat} (h : o.getD u.offset = u.offset) :
    afterResponse u { status := 0, offset := o } = .failed .noProgress := by
  simp [afterResponse, h]

theorem afterResponse_done (h : u.image.length ≠ u.offset) :
    afterResponse u { status := 0, offset := some u.image.length } = .done := by
  simp [afterResponse, h]

/-- Any other offset is where the next chunk starts. -/
theorem afterResponse_follows {v : Nat} (ho : v ≠ u.offset) (hi : v ≠ u.image.length) :
    afterResponse u { status := 0, offset := some v } =
      if v = u.offset + (chunkBytes u).length then .advancing { u with offset := v }
      else .resyncing { u with offset := v } := by
  simp [afterResponse, ho, hi]

end

/-- Settles O60: each decision by the lemmas on its function. -/
theorem uploadShrinksAndFollowsTheDevice : Obligations.UploadShrinksAndFollowsTheDevice := by
  refine ⟨fun u v s h => ?_, fun u s => afterEncode_sending, fun slot u ho hi => ?_,
    fun slot u => uploadPayload_of_not_fits, fun op seq r => ⟨?_, ?_, ?_⟩, fun u v ho hi => ?_,
    fun u h => afterResponse_done u h.symm, fun u => afterResponse_noProgress u rfl,
    fun u => afterResponse_noProgress u rfl, fun u n o hn => afterResponse_deviceError u hn o⟩
  · obtain ⟨hm, hover, hleft, rfl⟩ := afterEncode_eq_shrinking h
    have hpos := shrinkBy_pos (s.wlen.toNat - s.mtu.toNat)
    refine ⟨hm, hover, ?_, ?_, rfl, rfl⟩ <;> dsimp only <;> omega
  · refine ⟨_, uploadPayload_of_fits ho hi, rfl, Nat.mod_eq_of_lt ho, chunkBytes_eq u, fun hz ha => ?_, fun h => ?_⟩
    · exact ⟨_, if_pos (Session.announces_iff.2 ⟨hz, ha⟩), Nat.mod_eq_of_lt hi⟩
    · have hsilent : ¬ u.announces = true := by
        rw [Session.announces_iff, not_and_or, Bool.not_eq_false]
        exact h
      exact if_neg hsilent
  · intro hseq
    exact decodeReading_of_correlate (correlate_seqMismatch hseq)
  · intro hseq h
    exact decodeReading_of_correlate (correlate_rspMismatch hseq h)
  · intro hseq hop hgroup
    have hmatch := correlate_matches hseq hop hgroup
    cases hbody : Config.payloadDecode r.body <;> simp only [decodeReading, hmatch, hbody]
  · rw [afterResponse_follows u ho hi]
    split
    · exact .inl rfl
    · exact .inr rfl

end Sys2Proof.Machine
end

section
/-! PROOFS. The exceptions family (60_exceptions.md): the fault entry, commands after a fault, the fault record that only a
reset clears, and what no instruction changes, whether it faults or not. -/

namespace Sys2Proof.Machine

/-! ## The fault entry (R271, R280) -/

/-- Zero in `ERR` means no fault, so no fault has that number (R31, R271). -/
theorem FaultCode.one_le_code (c : FaultCode) : 1 ≤ c.code.toNat := by
  have hne := c.code_range.1
  bv_omega

/-- Settles O43: the numbers by the table, the entry by the laws of `raiseFault` and of the codes. -/
theorem faultEntry : Obligations.FaultEntry := by
  refine ⟨by decide, fun c info s => ⟨rfl, ?_, ?_, ?_, ?_⟩⟩
  · exact errf_raiseFault c info s
  · exact mtuovf_raiseFault c info s
  · exact c.one_le_code
  · exact c.code_range.2

/-! ## Commands after a fault (R94, R282) -/

/-- Settles O45: a command by `exec_command_faulted`; a written value is a code, legal or not, that is not looked at. -/
theorem commandsDoNothingAfterAFault : Obligations.CommandsDoNothingAfterAFault := by
  refine ⟨fun i s hi hfault => exec_command_faulted hi hfault, fun s v hv hfault h => ?_⟩
  obtain ⟨code, rfl⟩ : ∃ code : Byte, code.toNat = v :=
    ⟨BitVec.ofNat 8 v, (BitVec.toNat_ofNat ..).trans (Nat.mod_eq_of_lt hv)⟩
  rw [h.step_command (issueCommand_faulted hfault code), operationDone_same h.1 rfl]

/-! ## The fault record (R281) -/

/-- What the fault entry records and only a reset clears. -/
def State.faultRecord (s : State) := (s.errf, s.err, s.errinfo, s.xstate, s.portOpen)

theorem faultRecord_eq_iff {s t : State} :
    t.faultRecord = s.faultRecord ↔
      t.errf = s.errf ∧ t.err = s.err ∧ t.errinfo = s.errinfo ∧ t.xstate = s.xstate ∧ t.portOpen = s.portOpen := by
  simp only [State.faultRecord, Prod.mk.injEq]

theorem operationDone_faultRecord (s u : State) : (operationDone s u).faultRecord = u.faultRecord := by
  rcases operationDone_cases s u with h | ⟨-, h | h⟩ <;> rw [h] <;> rfl

theorem writeReg_faultRecord (r : Reg) (v : Nat) (s : State) : (writeReg r v s).faultRecord = s.faultRecord := by
  cases r <;> rfl

theorem busWriteBytes_faultRecord (b : Buf) (off : Nat) (bytes : List Byte) (s : State) :
    (busWriteBytes b off bytes s).faultRecord = s.faultRecord := by
  cases b <;> rfl

theorem busReadBytes_faultRecord (b : Buf) (off n : Nat) (s : State) :
    (busReadBytes b off n s).faultRecord = s.faultRecord := by
  unfold busReadBytes
  dsimp only
  split <;> rfl

/-- After a fault no bus operation touches the record: a command is not run, and no other operation writes it. -/
theorem busOp_faultRecord {op : BusOp} {s t : State} (hfault : s.errf = true) (h : busOp op s = .next t) :
    t.faultRecord = s.faultRecord := by
  rcases busOp_cases h with
    ⟨v, -, hi⟩ | ⟨r, v, -, -, rfl⟩ | ⟨r, -, rfl⟩ | ⟨b, off, bytes, -, rfl⟩ | ⟨b, off, n, -, rfl⟩
  · obtain rfl := Host.Outcome.next.inj ((issueCommand_faulted hfault _).symm.trans hi)
    rfl
  · exact writeReg_faultRecord r v s
  · rfl
  · exact busWriteBytes_faultRecord b off bytes s
  · exact busReadBytes_faultRecord b off n s

/-- In `FAULT` no exchange is in progress and nothing waits for a byte, so a move is the host's, an arrival that is only
queued, or a second that passes without effect. -/
theorem Move.faultRecord {s t : State} (hm : Move s t) (hfault : s.errf = true) (hx : s.xstate = .fault) :
    t.faultRecord = s.faultRecord := by
  have hidle : s.xstate.busy = false := by rw [hx]; rfl
  have hwait : s.waiting = false := by rw [State.waiting, hx]; rfl
  cases hm with
  | rest => rfl
  | host _ _ _ performed => exact (operationDone_faultRecord _ _).trans (busOp_faultRecord hfault performed)
  | exchange busy => simp [hidle] at busy
  | arrival bytes =>
    rw [exchangeDone_idle hidle, arriveBytes_queues hwait]
    rfl
  | openFails opening => simp [hx] at opening
  | writeFails writing _ => simp [hx] at writing
  | readFails waiting => simp [hwait] at waiting
  | timesOut waiting => simp [hwait] at waiting
  | tick => rw [exchangeDone_idle hidle, tickTimer, hwait, if_neg Bool.false_ne_true]

/-- Settles O46: by the invariant the state is `FAULT` with the device closed, and no move changes the fault record. -/
theorem faultsArePermanent : Obligations.FaultsArePermanent := by
  intro s t hinv hfault hreset hstep
  have hx : s.xstate = .fault := hinv.fault_state.1 hfault
  have hport : s.portOpen = false := by rw [hinv.port, hx]; rfl
  rcases step_move hstep with ⟨env, hm⟩ | ⟨seed, rx, rest, henv, -⟩
  · obtain ⟨herrf, herr, hinfo, hxstate, hopen⟩ := faultRecord_eq_iff.1 (hm.faultRecord hfault hx)
    exact ⟨herrf.trans hfault, herr, hinfo, hxstate.trans hx, hopen.trans hport⟩
  · exact absurd henv (hreset seed rx rest)

/-! ## What an instruction leaves alone (R24, R280, R314)

`SEQ.NEXT` and `FRM.ENC` apart, an instruction leaves the whole host side of the state alone (`State.hostSide`) and
`MTUOVF` with it; these two leave alone the part of it that is no output of theirs. -/

/-- The data of the host that no instruction changes. -/
def State.hostData (s : State) :=
  (s.pbuf, s.plen, s.data, s.linelen, s.mtu, s.timeout, s.txhOp, s.txhGroup, s.txhSeq, s.txhCmd)

theorem hostData_eq_iff {s t : State} :
    t.hostData = s.hostData ↔
      t.pbuf = s.pbuf ∧ t.plen = s.plen ∧ t.data = s.data ∧ t.linelen = s.linelen ∧ t.mtu = s.mtu ∧
        t.timeout = s.timeout ∧ t.txhOp = s.txhOp ∧ t.txhGroup = s.txhGroup ∧ t.txhSeq = s.txhSeq ∧
        t.txhCmd = s.txhCmd := by
  simp only [State.hostData, Prod.mk.injEq]

/-- The host side holds the host's data, the two registers of `SEQ.NEXT` and three of the outputs of `FRM.ENC`. -/
theorem hostSide_parts {s t : State} (h : t.hostSide = s.hostSide) :
    t.hostData = s.hostData ∧ (t.seq = s.seq ∧ t.res = s.res) ∧
      t.wbuf = s.wbuf ∧ t.wlen = s.wlen ∧ t.txhLen = s.txhLen := by
  obtain ⟨⟨hseq, hres, hdata, hlinelen, hmtu, htimeout, hplen, hpbuf, hwbuf, hwlen, hop, hlen, hgroup, hid, hcmd⟩, -⟩ :=
    hostSide_eq_iff.1 h
  exact ⟨hostData_eq_iff.2 ⟨hpbuf, hplen, hdata, hlinelen, hmtu, htimeout, hop, hgroup, hid, hcmd⟩, ⟨hseq, hres⟩,
    hwbuf, hwlen, hlen⟩

/-- Everything `FRM.ENC` can do: a configuration fault, or the frame (R166). -/
theorem encodeFrame_cases (s : State) :
    (∃ info, encodeFrame s = faultFrmEnc .cfg info s) ∨
      encodeFrame s =
        { s with
          txhLen := s.plen
          crc := encodedCrc s
          wbuf := s.wbuf.write 0 (wireBytes s)
          wlen := BitVec.ofNat 32 (wireBytes s).length
          status := putMtuovf s.status (mtuOverflow (wireBytes s).length s.mtu) } := by
  by_cases hline : s.linelen.toNat < 5
  · exact .inl ⟨1, encodeFrame_narrow hline⟩
  by_cases hplen : 65525 < s.plen.toNat
  · exact .inl ⟨2, encodeFrame_long hline hplen⟩
  cases hfit : fits (wireBytes s).length s.caps.wbuf with
  | false => exact .inl ⟨3, encodeFrame_too_large hline hplen hfit⟩
  | true => exact .inr (encodeFrame_fits hline hplen hfit)

theorem encodeFrame_hostData (s : State) : (encodeFrame s).hostData = s.hostData := by
  rcases encodeFrame_cases s with ⟨info, h⟩ | h <;> rw [h] <;> rfl

theorem encodeFrame_seq_res (s : State) : (encodeFrame s).seq = s.seq ∧ (encodeFrame s).res = s.res := by
  rcases encodeFrame_cases s with ⟨info, h⟩ | h <;> rw [h] <;> exact ⟨rfl, rfl⟩

/-- Everything the decode of a frame can do: a fault, or the delivery of the frame (R187). -/
theorem decodeFrameWith_cases (onFault : FaultCode → Half → State → State) (s : State) :
    (∃ c info, decodeFrameWith onFault s = onFault c info s) ∨ ∃ f, decodeFrameWith onFault s = deliverFrame f s := by
  cases hp : frameParse (textOperand s) with
  | error e => exact .inl ⟨e.1, e.2, decodeFrameWith_bad hp⟩
  | ok f =>
    by_cases hfit : fits f.raw.length s.caps.rbuf = true
    · exact .inr ⟨f, decodeFrameWith_fits hp hfit⟩
    · exact .inl ⟨.cfg, 3, decodeFrameWith_too_large hp hfit⟩

theorem encodeText_hostSide (s : State) : (encodeText s).hostSide = s.hostSide := by
  unfold encodeText
  dsimp only
  split <;> rfl

theorem decodeText_hostSide (s : State) : (decodeText s).hostSide = s.hostSide := by
  unfold decodeText
  split
  · rfl
  · split <;> rfl

theorem decodeFrame_hostSide (s : State) : (decodeFrameWith faultFrmDec s).hostSide = s.hostSide := by
  rcases decodeFrameWith_cases faultFrmDec s with ⟨c, info, h⟩ | ⟨f, h⟩ <;> rw [h] <;> rfl

theorem instrEffect_hostSide {i : Instr} (hseq : i ≠ .seqNext) (hfrm : i ≠ .frmEnc) (s : State) :
    (instrEffect i s).hostSide = s.hostSide := by
  cases i with
  | seqNext => exact absurd rfl hseq
  | frmEnc => exact absurd rfl hfrm
  | b64Enc => exact encodeText_hostSide s
  | b64Dec => exact decodeText_hostSide s
  | frmDec => exact decodeFrame_hostSide s
  | markStart => exact arriveBytes_hostSide _ s
  | markCont => exact arriveBytes_hostSide _ s
  | term => exact arriveBytes_hostSide _ s
  | crcInit | crcUpd | crcBuf | xcv => rfl

/-! ### `MTUOVF` (R168, R280) -/

@[simp] theorem mtuovf_beginWait (s : State) : (beginWait s).mtuovf = s.mtuovf := by
  simp only [State.mtuovf, beginWait_status]

@[simp] theorem mtuovf_appendText (b : Byte) (s : State) : (appendText b s).mtuovf = s.mtuovf := by
  simp only [State.mtuovf, appendText_status]

theorem takeByte_mtuovf (b : Byte) (s : State) : (takeByte b s).mtuovf = s.mtuovf := by
  cases hx : s.xstate with
  | waitM0 =>
    simp only [takeByte, hx]
    split
    · exact mtuovf_beginWait _
    · exact mtuovf_raiseFault _ _ _
  | waitM1 =>
    simp only [takeByte, hx]
    split
    · exact mtuovf_beginWait _
    · exact mtuovf_raiseFault _ _ _
  | body =>
    simp only [takeByte, hx]
    split
    · rfl
    · split
      · exact mtuovf_raiseFault _ _ _
      · exact (mtuovf_beginWait _).trans (mtuovf_appendText b s)
  | _ => simp only [takeByte, hx]

theorem receiveStep_mtuovf (s : State) : (receiveStep s).mtuovf = s.mtuovf := by
  unfold receiveStep
  split
  · rfl
  · exact takeByte_mtuovf _ _

theorem arriveByte_mtuovf (b : Byte) (s : State) : (arriveByte b s).mtuovf = s.mtuovf := by
  unfold arriveByte
  dsimp only
  split
  · exact receiveStep_mtuovf _
  · rfl

theorem arriveBytes_mtuovf (bytes : List Byte) (s : State) : (arriveBytes bytes s).mtuovf = s.mtuovf := by
  induction bytes generalizing s with
  | nil => rfl
  | cons b bs ih => exact (ih _).trans (arriveByte_mtuovf b s)

theorem encodeText_mtuovf (s : State) : (encodeText s).mtuovf = s.mtuovf := by
  unfold encodeText
  dsimp only
  split
  · rfl
  · exact mtuovf_raiseFault _ _ _

theorem decodeText_mtuovf (s : State) : (decodeText s).mtuovf = s.mtuovf := by
  unfold decodeText
  split
  · exact mtuovf_raiseFault _ _ _
  · split
    · rfl
    · exact mtuovf_raiseFault _ _ _

theorem decodeFrame_mtuovf (s : State) : (decodeFrameWith faultFrmDec s).mtuovf = s.mtuovf := by
  rcases decodeFrameWith_cases faultFrmDec s with ⟨c, info, h⟩ | ⟨f, h⟩ <;> rw [h]
  · exact mtuovf_raiseFault c info _
  · rfl

/-- Only `FRM.ENC` computes `MTUOVF`, and the fault entry leaves it alone. -/
theorem instrEffect_mtuovf {i : Instr} (hfrm : i ≠ .frmEnc) (s : State) : (instrEffect i s).mtuovf = s.mtuovf := by
  cases i with
  | frmEnc => exact absurd rfl hfrm
  | b64Enc => exact encodeText_mtuovf s
  | b64Dec => exact decodeText_mtuovf s
  | frmDec => exact decodeFrame_mtuovf s
  | markStart => exact arriveBytes_mtuovf _ s
  | markCont => exact arriveBytes_mtuovf _ s
  | term => exact arriveBytes_mtuovf _ s
  | seqNext | crcInit | crcUpd | crcBuf | xcv => rfl

/-! ### The frame of every instruction -/

theorem instrEffect_hostData (i : Instr) (s : State) : (instrEffect i s).hostData = s.hostData := by
  by_cases hseq : i = .seqNext
  · subst hseq; rfl
  by_cases hfrm : i = .frmEnc
  · subst hfrm; exact encodeFrame_hostData s
  exact (hostSide_parts (instrEffect_hostSide hseq hfrm s)).1

theorem instrEffect_seq_res {i : Instr} (hseq : i ≠ .seqNext) (s : State) :
    (instrEffect i s).seq = s.seq ∧ (instrEffect i s).res = s.res := by
  by_cases hfrm : i = .frmEnc
  · subst hfrm; exact encodeFrame_seq_res s
  obtain ⟨-, hkept, -⟩ := hostSide_parts (instrEffect_hostSide hseq hfrm s)
  exact hkept

/-- The outputs of `FRM.ENC` are the other instructions' to keep (R166). -/
theorem instrEffect_encoded {i : Instr} (hfrm : i ≠ .frmEnc) (s : State) :
    (instrEffect i s).wbuf = s.wbuf ∧ (instrEffect i s).wlen = s.wlen ∧ (instrEffect i s).txhLen = s.txhLen ∧
      (instrEffect i s).mtuovf = s.mtuovf := by
  by_cases hseq : i = .seqNext
  · subst hseq; exact ⟨rfl, rfl, rfl, rfl⟩
  obtain ⟨-, -, hwbuf, hwlen, hlen⟩ := hostSide_parts (instrEffect_hostSide hseq hfrm s)
  exact ⟨hwbuf, hwlen, hlen, instrEffect_mtuovf hfrm s⟩

/-- Settles O47: an instruction does nothing or has its effect (`exec_cases`), and the effect keeps each group. -/
theorem instructionsLeaveTheHostsDataAlone : Obligations.InstructionsLeaveTheHostsDataAlone := by
  intro i s t h
  rcases exec_cases h with ⟨-, -, rfl⟩ | ⟨-, rfl⟩
  · exact ⟨rfl, rfl, rfl, rfl, rfl, rfl, rfl, rfl, rfl, rfl, rfl, fun _ => ⟨rfl, rfl⟩, fun _ => ⟨rfl, rfl, rfl, rfl⟩⟩
  · obtain ⟨hpbuf, hplen, hdata, hlinelen, hmtu, htimeout, hop, hgroup, hid, hcmd⟩ :=
      hostData_eq_iff.1 (instrEffect_hostData i s)
    exact ⟨hpbuf, hplen, hdata, hlinelen, hmtu, htimeout, hop, hgroup, hid, hcmd, instrEffect_txout i s,
      fun hseq => instrEffect_seq_res hseq s, fun hfrm => instrEffect_encoded hfrm s⟩

end Sys2Proof.Machine
end

section
/-! PROOFS. The reset family: a reset that is next in the script is taken at once in every state, and what it leaves is
the reset state but for the program, the capacities and the rest of the script (R300 to R302; log 15). -/

namespace Sys2Proof.Machine

/-- A reset is possible in every state (R300): when it is next in the script, the step takes it and uses it up. -/
theorem step_reset {s : State} {seed : Byte} {rx : List Byte} {rest : List EnvEvent}
    (henv : s.env = .reset seed rx :: rest) : step s = .next (resetBy seed rx { s with env := rest }) :=
  step_eq_envTurn henv rfl

@[simp] theorem errf_resetBy (seed : Byte) (rx : List Byte) (s : State) : (resetBy seed rx s).errf = false :=
  errf_resetWith seed rx s.draws s.caps

@[simp] theorem mtuovf_resetBy (seed : Byte) (rx : List Byte) (s : State) : (resetBy seed rx s).mtuovf = false :=
  mtuovf_resetWith seed rx s.draws s.caps

/-- Settles O56: the step is the reset (`step_reset`), which clears both flags; every other value of the table is a
literal of the reset state or a field that the reset keeps. -/
theorem resetLeavesAnyState : Obligations.ResetLeavesAnyState := by
  intro s seed rx rest henv
  refine ⟨_, step_reset henv, ?_⟩
  simp only [errf_resetBy, mtuovf_resetBy]
  simp [resetBy, State.resetWith, readReg]

end Sys2Proof.Machine
end
